-- ==== Sys2Proof/Word.lean ====
section
/-! DEFINITION. The words, bytes and bits of the link core (spec/00_scope.md R13).
A bit, a line level and a direction are a `Bool`: `true` is 1, high, rising; `false` is 0, low, falling. -/

namespace Sys2Proof

/-- An operation word: 32 bits (spec/30_encoding.md R300). -/
abbrev Word := BitVec 32

/-- A byte of either storage array (spec/20_memory.md R201, R210). -/
abbrev Byte := BitVec 8

end Sys2Proof
end

