-- ==== Sys2Proof/Config.lean ====
section
/-! DEFINITION. What a platform fixes (spec/00_scope.md R9, R10, R11), what the wire format fixes (R12), and the
free values: opaque constants with no body, of which no proof can know a value. -/

namespace Sys2Proof.Config

/-- The parameters of spec/00_scope.md R9, each an argument of its own. Times are in microseconds. DEDUCED: no rule of the
block ties `halfUs` to `pUs` (log entry 12). -/
structure Params where
  pUs         : Nat
  halfUs      : Nat
  shortMin    : Nat
  shortMax    : Nat
  longMin     : Nat
  longMax     : Nat
  intervalMax : Nat
  bufBytes    : Nat
  txBufBytes  : Nat
  deriving DecidableEq, Repr

/-- The defaults of R9. -/
def Params.default : Params where
  pUs         := 250
  halfUs      := 125
  shortMin    := 75
  shortMax    := 175
  longMin     := 200
  longMax     := 300
  intervalMax := 65535
  bufBytes    := 128
  txBufBytes  := 128

/-- The three lines of R10. A model refuses a parameter set that violates any of them. -/
def Params.legal (p : Params) : Bool :=
  (0 < p.shortMin && p.shortMin ≤ p.shortMax && p.shortMax < p.longMin && p.longMin ≤ p.longMax
    && p.longMax < p.intervalMax && p.intervalMax ≤ 65535)
  && (1 ≤ p.bufBytes && p.bufBytes ≤ 8191)
  && p.txBufBytes ≤ 65535

/-- R11: the requirement on the platform's timing. The block does not check it. -/
def Params.timed (p : Params) : Bool :=
  (p.shortMin ≤ p.halfUs && p.halfUs ≤ p.shortMax) && (p.longMin ≤ 2 * p.halfUs && 2 * p.halfUs ≤ p.longMax)

/-- `PREAMBLE_BYTE` (R12). -/
def preambleByte : Byte := 0xAA#8

/-- `LOCK_EDGES` (R12). -/
abbrev lockEdges : Nat := 8

/-- `RUN_LIMIT` (R12). -/
abbrev runLimit : Nat := 7

/-- `TERM_BITS` (R12). -/
abbrev termBits : Nat := 8

/-- `RETRACT` (R12). -/
abbrev retract : Nat := 7

/-- FREE VALUE (spec/43_control.md R650, spec/93_implementation_defined.md item 8): the byte that `TxMem` holds at an
index after the RESET of the given number, until it is written. Log entry 5. -/
opaque txDraw : Nat → Nat → Byte

/-- FREE VALUE (spec/43_control.md R650, spec/93_implementation_defined.md item 7): the bit that the frame store holds at
a bit index after the RESET of the given number, until it is written. Log entry 5. -/
opaque frameDraw : Nat → Nat → Bool

/-- FREE VALUE: the level a TICK drives when `tx_h` is past the frame's last level, a state that
spec/10_state.md R150 item 8 rules out and no rule gives a level for. Log entry 8. -/
opaque levelPastEnd : Nat → Bool

end Sys2Proof.Config
end

