-- ==== Sys2Proof/Syntax.lean ====
section
/-! DEFINITION. The operations of the link core: one constructor for each row of spec/opcode_table.json
(spec/30_encoding.md R310). Every operand has the width of its field (R320 to R322, R330), so a value too large for
its field cannot be written down. -/

namespace Sys2Proof

/-- The seven operations (spec/30_encoding.md R310). -/
inductive Instr where
  /-- TICK: the timing-reference pulse (spec/40_transmit.md R420). -/
  | tick
  /-- EDGE: a transition of the incoming line to level `dir`, `iv` microseconds after the previous event
  (spec/41_receive.md R500). -/
  | edge (dir : Bool) (iv : BitVec 16)
  /-- OVERFLOW: the edge sampler's maximum-interval event (spec/41_receive.md R501). -/
  | overflow
  /-- TX_WRITE: load payload byte `idx` (spec/40_transmit.md R430). -/
  | txWrite (idx : BitVec 16) (data : Byte)
  /-- TX_START: begin sending a frame of `len` payload bytes (spec/40_transmit.md R440). -/
  | txStart (len : BitVec 16)
  /-- TAKE: copy out and release a completed frame, at most `len` bytes (spec/42_frame_store.md R601). -/
  | take (len : BitVec 16)
  /-- RESET: return the link core to its initial state (spec/43_control.md R650). -/
  | reset
  deriving DecidableEq, Repr

/-- The mnemonic of an operation, as spec/opcode_table.json spells it. -/
def Instr.mnemonic : Instr → String
  | .tick        => "TICK"
  | .edge _ _    => "EDGE"
  | .overflow    => "OVERFLOW"
  | .txWrite _ _ => "TX_WRITE"
  | .txStart _   => "TX_START"
  | .take _      => "TAKE"
  | .reset       => "RESET"

end Sys2Proof
end

