-- ==== Sys2Proof/WellFormed.lean ====
section
/-! DEFINITION. What a well-formed operation is. An operation WORD is well formed when it matches a row of the
match-and-mask table of spec/30_encoding.md R311. An operation as a value of `Instr` is well formed by its type: every
operand already has the width of its field. -/

namespace Sys2Proof

/-- A row of the match-and-mask table (spec/30_encoding.md R311). -/
structure OpRow where
  mnemonic : String
  pattern  : Word
  mask     : Word
  deriving DecidableEq, Repr

/-- "A word `w` spells an operation exactly when `(w & mask) = match`." -/
def OpRow.accepts (r : OpRow) (w : Word) : Bool := w &&& r.mask == r.pattern

def rowTick     : OpRow := ⟨"TICK",     0x10000000#32, 0xFFFFFFFF#32⟩
def rowEdge     : OpRow := ⟨"EDGE",     0x20000000#32, 0xFFFE0000#32⟩
def rowOverflow : OpRow := ⟨"OVERFLOW", 0x30000000#32, 0xFFFFFFFF#32⟩
def rowTxWrite  : OpRow := ⟨"TX_WRITE", 0x40000000#32, 0xFF000000#32⟩
def rowTxStart  : OpRow := ⟨"TX_START", 0x50000000#32, 0xFFFF0000#32⟩
def rowTake     : OpRow := ⟨"TAKE",     0x60000000#32, 0xFFFF0000#32⟩
def rowReset    : OpRow := ⟨"RESET",    0x70000000#32, 0xFFFFFFFF#32⟩

/-- The table of R311. -/
def opTable : List OpRow := [rowTick, rowEdge, rowOverflow, rowTxWrite, rowTxStart, rowTake, rowReset]

/-- The row of an operation. -/
def Instr.row : Instr → OpRow
  | .tick        => rowTick
  | .edge _ _    => rowEdge
  | .overflow    => rowOverflow
  | .txWrite _ _ => rowTxWrite
  | .txStart _   => rowTxStart
  | .take _      => rowTake
  | .reset       => rowReset

/-- The word spells an operation: some row of R311 accepts it. A word that none accepts is illegal (R350). -/
def legalWord (w : Word) : Bool := opTable.any fun r => r.accepts w

/-- Well-formedness of an operation as a value: nothing is left to check, since the fields' widths are in the type
(spec/30_encoding.md R330: every field is unsigned and 16 bits wide, DATA 8, DIR 1). -/
def Instr.wellFormed : Instr → Bool
  | .tick        => true
  | .edge _ _    => true
  | .overflow    => true
  | .txWrite _ _ => true
  | .txStart _   => true
  | .take _      => true
  | .reset       => true

end Sys2Proof
end

