-- ==== Sys2Proof/Decode.lean ====
section
/-! DEFINITION. Decoding, a total function of the 32-bit word (spec/30_encoding.md R351), the encoder from the formats
of R301, and the host's numbering of a table row's bits. -/

namespace Sys2Proof

/-- Why a word is refused. -/
inductive RefuseReason where
  /-- R350: a reserved opcode, or a bit its format marks `0` that is 1. Code 32 (spec/60_exceptions.md R713). -/
  | reserved
  deriving DecidableEq, Repr

/-- What a word spells: an operation, or nothing. -/
inductive Decoded where
  | op     (i : Instr)
  | refuse (r : RefuseReason)
  deriving DecidableEq, Repr

/-- `OP`, bits 31 to 28 (R300). -/
def opField (w : Word) : BitVec 4 := w.extractLsb' 28 4

/-- The 16 bits 15 to 0: `IV` of format E, `LEN` of format L (R301). -/
def lowField (w : Word) : BitVec 16 := w.extractLsb' 0 16

/-- `DIR`, bit 16 of format E (R320). -/
def dirField (w : Word) : Bool := w.getLsbD 16

/-- `IDX`, bits 23 to 8 of format W (R321). -/
def idxField (w : Word) : BitVec 16 := w.extractLsb' 8 16

/-- `DATA`, bits 7 to 0 of format W (R321). -/
def dataField (w : Word) : Byte := w.extractLsb' 0 8

/-- Bits 27 to 0, the reserved bits of format N. -/
def reservedN (w : Word) : BitVec 28 := w.extractLsb' 0 28

/-- Bits 27 to 17, the reserved bits of format E. -/
def reservedE (w : Word) : BitVec 11 := w.extractLsb' 17 11

/-- Bits 27 to 24, the reserved bits of format W. -/
def reservedW (w : Word) : BitVec 4 := w.extractLsb' 24 4

/-- Bits 27 to 16, the reserved bits of format L. -/
def reservedL (w : Word) : BitVec 12 := w.extractLsb' 16 12

/-- The operation, if the reserved bits are 0 (R350 item 2). -/
def ifReservedZero {n : Nat} (bits : BitVec n) (i : Instr) : Decoded :=
  if bits = 0#n then .op i else .refuse .reserved

/-- `Decode(w)` (R351). -/
def decode (w : Word) : Decoded :=
  match (opField w).toNat with
  | 1 => ifReservedZero (reservedN w) .tick
  | 2 => ifReservedZero (reservedE w) (.edge (dirField w) (lowField w))
  | 3 => ifReservedZero (reservedN w) .overflow
  | 4 => ifReservedZero (reservedW w) (.txWrite (idxField w) (dataField w))
  | 5 => ifReservedZero (reservedL w) (.txStart (lowField w))
  | 6 => ifReservedZero (reservedL w) (.take (lowField w))
  | 7 => ifReservedZero (reservedN w) .reset
  | _ => .refuse .reserved

/-- Format N (R301): the opcode, every other bit 0. -/
def formatN (op : BitVec 4) : Word := op ++ 0#28

/-- Format E (R301): opcode, eleven 0s, DIR, IV. -/
def formatE (op : BitVec 4) (dir : Bool) (iv : BitVec 16) : Word := op ++ 0#11 ++ BitVec.ofBool dir ++ iv

/-- Format W (R301): opcode, four 0s, IDX, DATA. -/
def formatW (op : BitVec 4) (idx : BitVec 16) (data : Byte) : Word := op ++ 0#4 ++ idx ++ data

/-- Format L (R301): opcode, twelve 0s, LEN. -/
def formatL (op : BitVec 4) (len : BitVec 16) : Word := op ++ 0#12 ++ len

/-- The word of an operation (R301, R310). -/
def encode : Instr → Word
  | .tick             => formatN 0x1#4
  | .edge dir iv      => formatE 0x2#4 dir iv
  | .overflow         => formatN 0x3#4
  | .txWrite idx data => formatW 0x4#4 idx data
  | .txStart len      => formatL 0x5#4 len
  | .take len         => formatL 0x6#4 len
  | .reset            => formatN 0x7#4

/-- The operation a decoding gives, if it gives one. -/
def Decoded.instr? : Decoded → Option Instr
  | .op i     => some i
  | .refuse _ => none

/-- The word whose bits, numbered as spec/opcode_table.json numbers them, are the low `nbits` bits of `w`; none if that
is no 32-bit word. An operation is ONE word (R300), so there is no order of words or bytes to lay out. -/
def tableWord (nbits w : Nat) : Option Word :=
  if w % 2 ^ nbits < 2 ^ 32 then some (BitVec.ofNat 32 (w % 2 ^ nbits)) else none

/-- The operation the decoder reads from a table row's word. -/
def decodeTableWord (nbits w : Nat) : Option Instr :=
  match tableWord nbits w with
  | some v => (decode v).instr?
  | none   => none

end Sys2Proof
end

