-- ==== Sys2Proof/Machine/State.lean ====
section
/-! DEFINITION. The state of the link core (spec/10_state.md R100 to R148), what the model's event history records
(spec/00_scope.md R16), and the reasons a step can stop. -/

namespace Sys2Proof.Machine

open Sys2Proof.Config

/-- `rx_state` (spec/10_state.md R110). The fourth 2-bit value is unreachable and the rule lets a model leave it out
(log entry 7). -/
inductive RxState where
  | idle
  | sync
  | data
  deriving DecidableEq, Repr

/-- Why the decoder abandoned a frame (spec/60_exceptions.md R710). -/
inductive DesyncCause where
  | syncNotLong
  | dataBadInterval
  | dataLongAfterShort
  | capacity
  | lockWhileComplete
  deriving DecidableEq, Repr

/-- Why a host command was dropped (spec/60_exceptions.md R712). -/
inductive IgnoreReason where
  | txBusy
  | txIndex
  | txLength
  deriving DecidableEq, Repr

/-- The labels an outcome may carry (spec/00_scope.md R16; spec/41_receive.md R515, R520, R540; spec/60_exceptions.md
R710). -/
inductive Label where
  | syncStart
  | lock
  | stuffed
  | frameComplete
  | bit (v : Bool)
  | overflow
  deriving DecidableEq, Repr

/-- The one outcome of an applied word (spec/00_scope.md R16). -/
inductive OpOutcome where
  | ok     (labels : List Label)
  | ignore (reason : IgnoreReason)
  | desync (cause : DesyncCause) (labels : List Label)
  | refuse (reason : RefuseReason)
  deriving DecidableEq, Repr

/-- TAKE's result `(count, data)` (spec/30_encoding.md R340). -/
structure Response where
  count : BitVec 16
  data  : List Byte
  deriving DecidableEq, Repr

/-- What the model records of an applied word: its outcome, its result if it returns one, and the status outputs after
it (spec/00_scope.md R16, spec/70_reset_and_hazards.md R851). DESIGN CHOICE: log entry 4. -/
structure Event where
  outcome : OpOutcome
  result  : Option Response
  status  : BitVec 3
  deriving DecidableEq, Repr

/-- A storage array: the cells written since the last RESET, by strictly rising index. An index that is not listed holds
no written value; what it then reads as is said by the array's own read (log entries 5 and 6). -/
abbrev Memory (α : Type) := List (Nat × α)

/-- The state (spec/10_state.md R100). The last four fields are the model's own. -/
structure State where
  /-- R110 -/
  rxState     : RxState
  /-- R111 -/
  syncN       : BitVec 3
  /-- R112 -/
  pendingHalf : Bool
  /-- R113 -/
  lastBit     : Bool
  /-- R114 -/
  run         : BitVec 3
  /-- R130 -/
  wrBits      : BitVec 16
  /-- R131 -/
  complete    : Bool
  /-- R132: the frame store, by bit index -/
  frame       : Memory Bool
  /-- R140 -/
  txActive    : Bool
  /-- R141 -/
  txLen       : BitVec 16
  /-- R142 -/
  txH         : BitVec 21
  /-- R143 -/
  lineOut     : Bool
  /-- R144 -/
  pulseReady  : Bool
  /-- R146: the transmit payload memory, by byte index -/
  txMem       : List Host.Cell
  /-- The parameters of this instance (spec/00_scope.md R9, R103): no operation writes them. Log entry 3. -/
  params      : Params
  /-- How many RESETs have been applied: it numbers the free draws of the two arrays. Log entry 5. -/
  draws       : Nat
  /-- The operation words presented and not yet applied, in the order of application (R102). Log entry 1. -/
  port        : List Word
  /-- The event history, newest first (spec/00_scope.md R16). Log entry 4. -/
  history     : List Event
  deriving DecidableEq, Repr

/-- Why the machine stops with a fault. Both are accesses outside an array, possible only in states that
spec/10_state.md R150 rules out. -/
inductive Fault where
  /-- Raised by EDGE when it stores a bit, and by TAKE when it reads a byte, outside the frame store (`wr_bits` above
  `8*BUF_BYTES`). Safe: the index does not exist. Log entry 9. -/
  | frameStoreBounds
  /-- Raised by TICK while it sends a payload that reaches outside `TxMem` (`tx_len` above `TX_BUF_BYTES`). Safe: the
  index does not exist. Log entry 9. -/
  | txMemBounds
  deriving DecidableEq, Repr

/-- Why a step has no meaning. -/
inductive Refusal where
  /-- Raised by exec's arm of an operation that has no meaning in the model yet. Safe. No arm raises it now. -/
  | notModelled (mnemonic : String)
  /-- Raised by step when the parameters violate spec/00_scope.md R10: a model refuses such a set. Safe. -/
  | illegalParameters
  deriving DecidableEq, Repr

/-- The machine right after reset, and at power-on (spec/10_state.md R148, spec/43_control.md R652). The model's own
fields: default parameters, draw number 0, nothing presented, nothing recorded (DESIGN CHOICE, log entries 1, 3, 4, 5). -/
def State.reset : State where
  rxState     := .idle
  syncN       := 0#3
  pendingHalf := false
  lastBit     := false
  run         := 0#3
  wrBits      := 0#16
  complete    := false
  frame       := []
  txActive    := false
  txLen       := 0#16
  txH         := 0#21
  lineOut     := false
  pulseReady  := false
  txMem       := []
  params      := Params.default
  draws       := 0
  port        := []
  history     := []

end Sys2Proof.Machine
end

