-- ==== Sys2Proof/Machine/Flags.lean ====
section
/-! DEFINITION. The status outputs (spec/10_state.md R147), the codes of states, causes and reasons
(spec/10_state.md R110, spec/60_exceptions.md R710, R712, R713). -/

namespace Sys2Proof.Machine

/-- Status output 0: `S.tx_active` (R147). -/
def txBusy (s : State) : Bool := s.txActive

/-- Status output 1: `S.complete` (R147). -/
def frameReady (s : State) : Bool := s.complete

/-- Status output 2: `S.line_out`, the transmit line (R147). -/
def line (s : State) : Bool := s.lineOut

/-- `STATUS[2:0]` (R147): a combinational copy of state. -/
def status (s : State) : BitVec 3 :=
  BitVec.ofBool (line s) ++ BitVec.ofBool (frameReady s) ++ BitVec.ofBool (txBusy s)

/-- The encoding of `rx_state` (spec/10_state.md R110). -/
def rxStateCode : RxState → BitVec 2
  | .idle => 0#2
  | .sync => 1#2
  | .data => 2#2

/-- The code of a desync cause (spec/60_exceptions.md R710). -/
def desyncCode : DesyncCause → Nat
  | .syncNotLong        => 1
  | .dataBadInterval    => 2
  | .dataLongAfterShort => 3
  | .capacity           => 4
  | .lockWhileComplete  => 5

/-- The code of an ignore reason (spec/60_exceptions.md R712). -/
def ignoreCode : IgnoreReason → Nat
  | .txBusy   => 16
  | .txIndex  => 17
  | .txLength => 18

/-- The code of a refusal (spec/60_exceptions.md R713). -/
def refuseCode : RefuseReason → Nat
  | .reserved => 32

/-- The code of an outcome, none where it is `ok`. -/
def outcomeCode : OpOutcome → Option Nat
  | .ok _       => none
  | .ignore r   => some (ignoreCode r)
  | .desync c _ => some (desyncCode c)
  | .refuse r   => some (refuseCode r)

/-- `!x` of R525: the flipped value of the last recovered bit. -/
def flippedBit (s : State) : Bool := !s.lastBit

/-- The run counter of the de-escaper after storing `v`: "increment if `value==1`, else reset to 0"
(spec/41_receive.md R544). -/
def runAfter (s : State) (v : Bool) : BitVec 3 := if v then s.run + 1#3 else 0#3

end Sys2Proof.Machine
end

