-- ==== Sys2Proof/Machine/LineCode.lean ====
section
/-! DEFINITION. The wire format as pure functions (spec/40_transmit.md R400 to R411), the incremental sequencer of R422,
and the byte a list of stored bits makes. -/

namespace Sys2Proof.Machine

open Sys2Proof.Config

/-- A byte's bits, most significant first: `[b[7], ..., b[0]]` (spec/00_scope.md R13). -/
def byteBits (b : Byte) : List Bool :=
  [b.getLsbD 7, b.getLsbD 6, b.getLsbD 5, b.getLsbD 4, b.getLsbD 3, b.getLsbD 2, b.getLsbD 1, b.getLsbD 0]

/-- The byte of eight bits, most significant first: the packing of spec/20_memory.md R210. -/
def packByte (b7 b6 b5 b4 b3 b2 b1 b0 : Bool) : Byte :=
  BitVec.ofBool b7 ++ BitVec.ofBool b6 ++ BitVec.ofBool b5 ++ BitVec.ofBool b4
    ++ BitVec.ofBool b3 ++ BitVec.ofBool b2 ++ BitVec.ofBool b1 ++ BitVec.ofBool b0

/-- `PayloadBits(p)` (R400). -/
def payloadBits (p : List Byte) : List Bool := p.flatMap byteBits

/-- `TermBits` (R401). -/
def terminatorBits : List Bool := List.replicate termBits true

/-- `PreambleBits = PayloadBits([0xAA])` (R402). -/
def preambleBits : List Bool := payloadBits [preambleByte]

/-- The run counter after a bit: one more after a 1, zero after a 0 (R403). -/
def countRun (run : Nat) (b : Bool) : Nat := if b then run + 1 else 0

/-- The loop of `Stuff` (R403) from a value of its counter `run_tx` (spec/10_state.md R145). -/
def stuffFrom (run : Nat) : List Bool → List Bool
  | []      => []
  | b :: bs =>
    if countRun run b = runLimit then b :: false :: stuffFrom 0 bs
    else b :: stuffFrom (countRun run b) bs

/-- `Stuff(bits)` (R403): the counter starts at 0 with the payload. -/
def stuff (bits : List Bool) : List Bool := stuffFrom 0 bits

/-- `WireBits(p)` (R405). -/
def wireBits (p : List Byte) : List Bool := preambleBits ++ stuff (payloadBits p) ++ terminatorBits

/-- `Level(b, h)` (R410), half `false` the first and `true` the second. -/
def level : Bool → Bool → Bool
  | true,  false => false
  | true,  true  => true
  | false, false => true
  | false, true  => false

/-- The two half-period levels of a wire bit, in order: `drive(b)` of R422. -/
def bitLevels (b : Bool) : List Bool := [level b false, level b true]

/-- `TxLevels(p)` (R411). -/
def txLevels (p : List Byte) : List Bool := (wireBits p).flatMap bitLevels

/-- The sequencer of R422 after one payload bit: the levels driven so far and `run_tx`. -/
def seqBit (acc : List Bool × Nat) (b : Bool) : List Bool × Nat :=
  if countRun acc.2 b = runLimit then (acc.1 ++ bitLevels b ++ bitLevels false, 0)
  else (acc.1 ++ bitLevels b, countRun acc.2 b)

/-- The sequencer of R422 after one payload byte, bits 7 down to 0. -/
def seqByte (acc : List Bool × Nat) (x : Byte) : List Bool × Nat :=
  [7, 6, 5, 4, 3, 2, 1, 0].foldl (fun a i => seqBit a (x.getLsbD i)) acc

/-- All levels that the sequencer of R422 drives for a payload. -/
def sequencerLevels (p : List Byte) : List Bool :=
  preambleBits.flatMap bitLevels ++ (p.foldl seqByte ([], 0)).1 ++ terminatorBits.flatMap bitLevels

end Sys2Proof.Machine
end

