-- ==== Sys2Proof/Machine/Ops.lean ====
section
/-! DEFINITION. The named operations over the two storage arrays and the registers. Every write a rule makes is one
named update here; the block has no exception to take (spec/60_exceptions.md R700, R740), and `desync` is the one
shared way the decoder abandons a frame (spec/41_receive.md R530). -/

namespace Sys2Proof.Machine

open Sys2Proof.Config

/-! ### Storage arrays -/

/-- The value written at an index since the last RESET, if any. -/
def Memory.read {α : Type} : Memory α → Nat → Option α
  | [],             _ => none
  | (k, v) :: rest, a => if k = a then some v else Memory.read rest a

/-- Write one cell, keeping the indices strictly rising. -/
def Memory.write {α : Type} (a : Nat) (v : α) : Memory α → Memory α
  | []             => [(a, v)]
  | (k, x) :: rest =>
    if a < k then (a, v) :: (k, x) :: rest
    else if a = k then (a, v) :: rest
    else (k, x) :: Memory.write a v rest

/-- The canonical form: indices strictly rising. No listed entry can equal what an unlisted index holds, which is no
value (log entry 6). -/
def Memory.wf {α : Type} : Memory α → Bool
  | []                         => true
  | [_]                        => true
  | (a, _) :: (b, y) :: rest   => a < b && Memory.wf ((b, y) :: rest)

/-- Every listed index is below `n`: the array has no other cells (spec/20_memory.md R201, R210). -/
def Memory.below {α : Type} (n : Nat) (m : Memory α) : Bool := m.all fun c => c.1 < n

/-- `TxMem[j]` (spec/20_memory.md R201): the byte written, else the draw of the last RESET. -/
def txByte (s : State) (j : Nat) : Byte := (Memory.read s.txMem j).getD (txDraw s.draws j)

/-- `FrameBit(i)` (spec/20_memory.md R210): the bit written, else the draw of the last RESET. -/
def frameBit (s : State) (i : Nat) : Bool := (Memory.read s.frame i).getD (frameDraw s.draws i)

/-- `FrameByte(j)` (spec/20_memory.md R210): bit `8*j` of the store is its most significant bit. -/
def frameByte (s : State) (j : Nat) : Byte :=
  packByte (frameBit s (8 * j)) (frameBit s (8 * j + 1)) (frameBit s (8 * j + 2)) (frameBit s (8 * j + 3))
    (frameBit s (8 * j + 4)) (frameBit s (8 * j + 5)) (frameBit s (8 * j + 6)) (frameBit s (8 * j + 7))

/-- The number of bits in the frame store. -/
abbrev frameBits (s : State) : Nat := 8 * s.params.bufBytes

/-- `[FrameByte(0), ..., FrameByte(n-1)]`; none where that reaches outside the store (log entry 9). -/
def frameBytes? (s : State) (n : Nat) : Option (List Byte) :=
  if n ≤ s.params.bufBytes then some ((List.range n).map (frameByte s)) else none

/-- `TxMem[0 .. n-1]` (spec/20_memory.md R202); none where that reaches outside `TxMem` (log entry 9). -/
def txBytes? (s : State) (n : Nat) : Option (List Byte) :=
  if n ≤ s.params.txBufBytes then some ((List.range n).map (txByte s)) else none

/-- The payload of the frame being sent, `TxMem[0 .. tx_len-1]` (spec/40_transmit.md R420). -/
def payload? (s : State) : Option (List Byte) := txBytes? s s.txLen.toNat

/-! ### Receiver registers -/

/-- `rx_state <- IDLE`: all that a desync writes (spec/41_receive.md R530). -/
def State.toIdle (s : State) : State := { s with rxState := .idle }

/-- A rising edge in IDLE (spec/41_receive.md R515). -/
def State.startSync (s : State) : State := { s with rxState := .sync, syncN := 1#3 }

/-- One more preamble edge accepted (spec/41_receive.md R520). -/
def State.countSync (s : State) : State := { s with syncN := s.syncN + 1#3 }

/-- Lock acquired (spec/41_receive.md R520). -/
def State.acquireLock (s : State) : State :=
  { s with rxState := .data, pendingHalf := false, lastBit := false, run := 0#3, wrBits := 0#16 }

/-- `pending_half <- v` (spec/41_receive.md R525). -/
def State.setPending (v : Bool) (s : State) : State := { s with pendingHalf := v }

/-- `last_bit <- v` (spec/41_receive.md R525). -/
def State.setLast (v : Bool) (s : State) : State := { s with lastBit := v }

/-- The stuffed bit is discarded: `run <- 0` (spec/41_receive.md R541). -/
def State.dropStuffed (s : State) : State := { s with run := 0#3 }

/-- The terminator: retract 7 bits, mark the frame complete, revert to IDLE (spec/41_receive.md R542). Below 7 the
16-bit register wraps; spec/10_state.md R150 rules that out (log entry 10). -/
def State.finishFrame (s : State) : State :=
  { s with wrBits := s.wrBits - BitVec.ofNat 16 retract, complete := true, rxState := .idle }

/-- `FrameBit(wr_bits) <- v`, advance the cursor, update the run (spec/41_receive.md R544). -/
def State.storeBit (v : Bool) (s : State) : State :=
  { s with frame := Memory.write s.wrBits.toNat v s.frame, wrBits := s.wrBits + 1#16, run := runAfter s v }

/-- TAKE releases the frame: `complete <- 0`, `wr_bits <- 0` (spec/42_frame_store.md R601). -/
def State.releaseFrame (s : State) : State := { s with complete := false, wrBits := 0#16 }

/-! ### Transmitter registers -/

/-- `pulse_ready <- 1` (spec/40_transmit.md R420). -/
def State.setPulse (s : State) : State := { s with pulseReady := true }

/-- Drive a level and consume the pulse: `line_out`, `tx_h + 1`, `pulse_ready <- 0` (spec/40_transmit.md R420). -/
def State.driveLevel (l : Bool) (s : State) : State :=
  { s with lineOut := l, txH := s.txH + 1#21, pulseReady := false }

/-- `tx_active <- 0`: the last level is driven (spec/40_transmit.md R420). -/
def State.endFrame (s : State) : State := { s with txActive := false }

/-- `TxMem[j] <- b` (spec/40_transmit.md R430). -/
def State.writeTx (j : Nat) (b : Byte) (s : State) : State := { s with txMem := Memory.write j b s.txMem }

/-- TX_START's writes (spec/40_transmit.md R440). -/
def State.startFrame (len : BitVec 16) (s : State) : State :=
  { s with txLen := len, txH := 0#21, pulseReady := false, txActive := true }

/-! ### Reset, the port and the history -/

/-- RESET's writes (spec/43_control.md R650): every field to spec/10_state.md R148, and new free draws for both arrays.
The parameters are no state (spec/10_state.md R103), and what the agents have presented and what the model has
recorded are outside the block. -/
def State.clear (s : State) : State :=
  { State.reset with params := s.params, draws := s.draws + 1, port := s.port, history := s.history }

/-- The state with the presented words replaced. -/
def State.withPort (ws : List Word) (s : State) : State := { s with port := ws }

/-- Record the outcome and result of the word just applied, with the status outputs after it (spec/00_scope.md R16,
spec/70_reset_and_hazards.md R851). -/
def State.record (o : OpOutcome) (r : Option Response) (s : State) : State :=
  { s with history := ⟨o, r, status s⟩ :: s.history }

/-- The next word to apply and the state in which it is applied; none when nothing is presented. -/
def nextWord? (s : State) : Option (Word × State) :=
  match s.port with
  | []        => none
  | w :: rest => some (w, s.withPort rest)

/-- End an operation that completes. -/
def conclude (o : OpOutcome) (r : Option Response) (s : State) : Host.Outcome State Fault Refusal :=
  .next (s.record o r)

/-- What a decoder rule gives: the state and the outcome, or a fault where it would store outside the frame store. -/
abbrev RxResult := Except Fault (State × OpOutcome)

/-- `Desync(cause)` (spec/41_receive.md R530). -/
def desync (c : DesyncCause) (s : State) : RxResult := .ok (s.toIdle, .desync c [])

/-- End a decoder operation. -/
def concludeRx : RxResult → Host.Outcome State Fault Refusal
  | .ok (s, o) => conclude o none s
  | .error f   => .fault f

/-- A refused word: no state change, no result, and the mark that a refusal happened (spec/30_encoding.md R350,
spec/43_control.md R653). DEDUCED: log entry 2. -/
def refuseWord (r : RefuseReason) (s : State) : Host.Outcome State Fault Refusal := conclude (.refuse r) none s

end Sys2Proof.Machine
end

