-- ==== Sys2Proof/Machine/Operands.lean ====
section
/-! DEFINITION. The operand forms (spec/30_encoding.md R320 to R323, R330) as the numbers the rules compare, and the
class of an interval (spec/41_receive.md R511). No field is sign-extended, scaled or shifted. -/

namespace Sys2Proof.Machine

open Sys2Proof.Config

/-- `IV = zext(w[15:0])`, microseconds (R320). -/
abbrev ivOperand (iv : BitVec 16) : Nat := iv.toNat

/-- `IDX = zext(w[23:8])`, a byte index (R321). -/
abbrev idxOperand (idx : BitVec 16) : Nat := idx.toNat

/-- `LEN = zext(w[15:0])`, a byte count (R322). -/
abbrev lenOperand (len : BitVec 16) : Nat := len.toNat

/-- The interval an OVERFLOW stands for (R323). -/
abbrev overflowInterval (s : State) : Nat := s.params.intervalMax

/-- The class of an interval (spec/41_receive.md R511). -/
inductive IntervalClass where
  | short
  | long
  | bad
  deriving DecidableEq, Repr

/-- `Classify(iv)` (spec/41_receive.md R511): both windows are closed. -/
def classify (p : Params) (iv : Nat) : IntervalClass :=
  if p.shortMin ≤ iv ∧ iv ≤ p.shortMax then .short
  else if p.longMin ≤ iv ∧ iv ≤ p.longMax then .long
  else .bad

end Sys2Proof.Machine
end

