-- ==== Sys2Proof/Machine/Control.lean ====
section
/-! DEFINITION. The control family: RESET (spec/43_control.md R650, R651). -/

namespace Sys2Proof.Machine

/-- RESET (R650). -/
def execReset (s : State) : Host.Outcome State Fault Refusal := conclude (.ok []) none s.clear

end Sys2Proof.Machine
end

