-- ==== Sys2Proof/Machine/FrameStore.lean ====
section
/-! DEFINITION. The frame store family: TAKE (spec/42_frame_store.md R600 to R602), and its response on a port
(spec/30_encoding.md R340). -/

namespace Sys2Proof.Machine

/-- The result `(0, [])` of a TAKE that finds no frame (R601). -/
def emptyResponse : Response := ⟨0#16, []⟩

/-- The result `(n, data)`: the count is the number of bytes (spec/30_encoding.md R340). -/
def responseOf (data : List Byte) : Response := ⟨BitVec.ofNat 16 data.length, data⟩

/-- `n = min(S.wr_bits / 8, LEN)` (R601). -/
def takeCount (len : BitVec 16) (s : State) : Nat := min (s.wrBits.toNat / 8) (lenOperand len)

/-- TAKE (R601): test, copy and clear are one operation. -/
def execTake (len : BitVec 16) (s : State) : Host.Outcome State Fault Refusal :=
  if s.complete then
    match frameBytes? s (takeCount len s) with
    | some data => conclude (.ok []) (some (responseOf data)) s.releaseFrame
    | none      => .fault .frameStoreBounds
  else conclude (.ok []) (some emptyResponse) s

end Sys2Proof.Machine
end

