-- ==== Sys2Proof/Machine/Receive.lean ====
section
/-! DEFINITION. The receive family: EDGE and OVERFLOW, over the IDLE, SYNC and DATA rules, the de-escaper and the
frame-delimiter detector (spec/41_receive.md R500 to R544). -/

namespace Sys2Proof.Machine

open Sys2Proof.Config

/-- The store step (R544), which needs `wr_bits` inside the store (log entry 9). -/
def storeStep (v : Bool) (s : State) : RxResult :=
  if s.wrBits.toNat < frameBits s then .ok (s.storeBit v, .ok [.bit v]) else .error .frameStoreBounds

/-- `WriteBit(v)` (R540): the run test comes before the capacity test. -/
def writeBit (v : Bool) (s : State) : RxResult :=
  if s.run.toNat = runLimit then
    if v then .ok (s.finishFrame, .ok [.frameComplete])
    else .ok (s.dropStuffed, .ok [.stuffed])
  else if s.wrBits.toNat = frameBits s then desync .capacity s
  else storeStep v s

/-- `RxIdle(DIR)` (R515). -/
def rxIdle (dir : Bool) (s : State) : RxResult :=
  if dir then .ok (s.startSync, .ok [.syncStart]) else .ok (s, .ok [])

/-- The 8th preamble edge (R520, R521): lock, unless a frame awaits the consumer. -/
def rxLock (s : State) : RxResult :=
  if s.complete then desync .lockWhileComplete s else .ok (s.acquireLock, .ok [.lock])

/-- `RxSync(c)` (R520). -/
def rxSync (c : IntervalClass) (s : State) : RxResult :=
  match c with
  | .long  => if s.syncN.toNat + 1 < lockEdges then .ok (s.countSync, .ok []) else rxLock s
  | .short => desync .syncNotLong s
  | .bad   => desync .syncNotLong s

/-- `RxData(c)` (R525): `last_bit` and `pending_half` are updated before `WriteBit` runs. -/
def rxData (c : IntervalClass) (s : State) : RxResult :=
  match c with
  | .short => if s.pendingHalf then writeBit s.lastBit (s.setPending false) else .ok (s.setPending true, .ok [])
  | .long  => if s.pendingHalf then desync .dataLongAfterShort s else writeBit (flippedBit s) (s.setLast (flippedBit s))
  | .bad   => desync .dataBadInterval s

/-- The outcome of an OVERFLOW: a desync carries the label `overflow` (spec/60_exceptions.md R710). -/
def labelOverflow : OpOutcome → OpOutcome
  | .desync c ls => .desync c (.overflow :: ls)
  | .ok ls       => .ok ls
  | .ignore r    => .ignore r
  | .refuse r    => .refuse r

/-- A decoder result with its outcome labelled as an OVERFLOW's. -/
def asOverflow : RxResult → RxResult
  | .ok (s, o) => .ok (s, labelOverflow o)
  | .error f   => .error f

/-- The decoder's reaction to an edge (R500): direction is read only in IDLE, the interval only in SYNC and DATA. -/
def rxEdge (dir : Bool) (iv : Nat) (s : State) : RxResult :=
  match s.rxState with
  | .idle => rxIdle dir s
  | .sync => rxSync (classify s.params iv) s
  | .data => rxData (classify s.params iv) s

/-- The decoder's reaction to an overflow (R501). -/
def rxOverflow (s : State) : RxResult :=
  match s.rxState with
  | .idle => .ok (s, .ok [])
  | .sync => rxSync (classify s.params (overflowInterval s)) s
  | .data => rxData (classify s.params (overflowInterval s)) s

/-- EDGE (R500). -/
def execEdge (dir : Bool) (iv : BitVec 16) (s : State) : Host.Outcome State Fault Refusal :=
  concludeRx (rxEdge dir (ivOperand iv) s)

/-- OVERFLOW (R501). -/
def execOverflow (s : State) : Host.Outcome State Fault Refusal := concludeRx (asOverflow (rxOverflow s))

end Sys2Proof.Machine
end

