-- ==== Sys2Proof/Machine/Transmit.lean ====
section
/-! DEFINITION. The transmit family: TICK, TX_WRITE, TX_START (spec/40_transmit.md R420, R430, R440). -/

namespace Sys2Proof.Machine

open Sys2Proof.Config

/-- `Lv[tx_h]` (R420). Past the end of the frame, which spec/10_state.md R150 item 8 rules out, a free value
(log entry 8). -/
def levelAt (lv : List Bool) (h : BitVec 21) : Bool := (lv[h.toNat]?).getD (levelPastEnd h.toNat)

/-- `if S.tx_h = |Lv| then S.tx_active <- 0`, after `tx_h` was advanced (R420). -/
def endIfLast (n : Nat) (s : State) : State := if s.txH.toNat = n then s.endFrame else s

/-- The encoder's part of TICK for the levels `lv` of the frame being sent (R420). -/
def sendLevel (lv : List Bool) (s : State) : State :=
  endIfLast lv.length (s.setPulse.driveLevel (levelAt lv s.txH))

/-- TICK (R420). -/
def execTick (s : State) : Host.Outcome State Fault Refusal :=
  if s.txActive then
    match payload? s with
    | some p => conclude (.ok []) none (sendLevel (txLevels p) s)
    | none   => .fault .txMemBounds
  else conclude (.ok []) none s.setPulse

/-- TX_WRITE (R430): busy is tested before the index (spec/60_exceptions.md R722). -/
def execTxWrite (idx : BitVec 16) (data : Byte) (s : State) : Host.Outcome State Fault Refusal :=
  if s.txActive then conclude (.ignore .txBusy) none s
  else if s.params.txBufBytes ≤ idxOperand idx then conclude (.ignore .txIndex) none s
  else conclude (.ok []) none (s.writeTx (idxOperand idx) data)

/-- TX_START (R440, R441): busy is tested before the length (spec/60_exceptions.md R722). -/
def execTxStart (len : BitVec 16) (s : State) : Host.Outcome State Fault Refusal :=
  if s.txActive then conclude (.ignore .txBusy) none s
  else if s.params.txBufBytes < lenOperand len then conclude (.ignore .txLength) none s
  else conclude (.ok []) none (s.startFrame len)

end Sys2Proof.Machine
end

