-- ==== Sys2Proof/Machine/Dispatch.lean ====
section
/-! DEFINITION. One arm per operation (spec/30_encoding.md R310). -/

namespace Sys2Proof.Machine

def exec (i : Instr) (s : State) : Host.Outcome State Fault Refusal :=
  match i with
  | .tick => Sys2Proof.Machine.execTick s
  | .edge dir iv => Sys2Proof.Machine.execEdge dir iv s
  | .overflow => Sys2Proof.Machine.execOverflow s
  | .txWrite idx data => Sys2Proof.Machine.execTxWrite idx data s
  | .txStart len => Sys2Proof.Machine.execTxStart len s
  | .take len => Sys2Proof.Machine.execTake len s
  | .reset => Sys2Proof.Machine.execReset s

end Sys2Proof.Machine
end

