-- ==== Sys2Proof/Machine/Apply.lean ====
section
/-! DEFINITION. Applying words and operations to a state (spec/30_encoding.md R350, spec/20_memory.md R230). -/

namespace Sys2Proof.Machine

/-- Apply one word: the operation it spells, or the refusal. -/
def applyWord (w : Word) (s : State) : Host.Outcome State Fault Refusal :=
  match decode w with
  | .op i     => exec i s
  | .refuse r => refuseWord r s

/-- Apply operations in order, each to the state the one before left (spec/20_memory.md R230). -/
def execAll : List Instr → State → Host.Outcome State Fault Refusal
  | [],      s => .next s
  | i :: is, s =>
    match exec i s with
    | .next t    => execAll is t
    | .fault f   => .fault f
    | .refused r => .refused r

/-- The port with a word put first, or as it is where no 32-bit word is given. -/
def portWith (w : Option Word) (ws : List Word) : List Word :=
  match w with
  | some v => v :: ws
  | none   => ws

end Sys2Proof.Machine
end

