-- ==== Sys2Proof/Machine/Step.lean ====
section
/-! DEFINITION. One step: apply the next word presented on the port. There is no program counter and no fetch
(spec/10_state.md R102). -/

namespace Sys2Proof.Machine

/-- One step. A parameter set that violates spec/00_scope.md R10 is refused. With nothing presented the state persists
(spec/60_exceptions.md R745). -/
def step (s : State) : Host.Outcome State Fault Refusal :=
  if s.params.legal then
    match nextWord? s with
    | none        => .next s
    | some (w, t) => applyWord w t
  else .refused .illegalParameters

/-- The state with an operation word, numbered as spec/opcode_table.json numbers its bits, presented as the next one to
apply. Log entry 1. -/
def State.withFetchWord (s : State) (nbits w : Nat) : State := s.withPort (portWith (tableWord nbits w) s.port)

end Sys2Proof.Machine
end

