-- ==== Sys2Proof/Machine/Platform.lean ====
section
/-! DEFINITION. What stands around the block: the agents (spec/00_scope.md R7), the order in which their operations are
applied (R8), and the two points the spec leaves to the platform, each an argument: `PORT_MAP`
(spec/92_eei_decisions.md D2) and `FRAME_READY_IRQ` (D20). -/

namespace Sys2Proof.Machine

/-- The four agents (spec/00_scope.md R7). -/
inductive Agent where
  | timingReference
  | edgeSampler
  | host
  | resetSource
  deriving DecidableEq, Repr

/-- Who is expected to issue an operation (spec/30_encoding.md R310). The port does not check it
(spec/60_exceptions.md R742): no meaning reads this. -/
def issuer : Instr → Agent
  | .tick        => .timingReference
  | .edge _ _    => .edgeSampler
  | .overflow    => .edgeSampler
  | .txWrite _ _ => .host
  | .txStart _   => .host
  | .take _      => .host
  | .reset       => .resetSource

/-- The words `ws` are presented after those already presented. -/
def present (ws : List Word) (s : State) : State := s.withPort (s.port ++ ws)

/-- A host access that the platform's `PORT_MAP` turns into an operation word, or into none (spec/20_memory.md R223). -/
def presentVia {α : Type} (portMap : α → Option Word) (access : α) (s : State) : State :=
  present (portMap access).toList s

/-- The interrupt a platform gives the host when it routes `frame_ready` (`FRAME_READY_IRQ`, spec/60_exceptions.md
R721). The block raises none itself. -/
def hostInterrupt (frameReadyIrq : Bool) (s : State) : Bool := frameReadyIrq && frameReady s

/-- `cs` merges the streams `as` and `bs`, keeping the order within each: the orders that a model admits when two agents
present operations at the same time (spec/00_scope.md R8, spec/60_exceptions.md R722). -/
inductive Interleaves {α : Type} : List α → List α → List α → Prop where
  | nil : Interleaves [] [] []
  | left {as bs cs : List α} (a : α) (h : Interleaves as bs cs) : Interleaves (a :: as) bs (a :: cs)
  | right {as bs cs : List α} (b : α) (h : Interleaves as bs cs) : Interleaves as (b :: bs) (b :: cs)

end Sys2Proof.Machine
end

