-- ==== Sys2Proof/Machine/Channel.lean ====
section
/-! DEFINITION. The ideal channel (spec/40_transmit.md R415), a test harness and no part of the block. -/

namespace Sys2Proof.Machine

open Sys2Proof.Config

/-- `iv` of R415: `INTERVAL_MAX` for the first edge, else the time since the last edge, at most `INTERVAL_MAX`. -/
def edgeInterval (p : Params) (t : Nat) : Option Nat → Nat
  | none       => p.intervalMax
  | some tlast => min ((t - tlast) * p.halfUs) p.intervalMax

/-- The loop of `IdealEdges` (R415) from time `t`, with the previous level and the time of the last edge. -/
def idealEdgesFrom (p : Params) (t : Nat) (prev : Bool) (tlast : Option Nat) : List Bool → List Instr
  | []      => []
  | l :: ls =>
    if l = prev then idealEdgesFrom p (t + 1) prev tlast ls
    else .edge l (BitVec.ofNat 16 (edgeInterval p t tlast)) :: idealEdgesFrom p (t + 1) l (some t) ls

/-- `IdealEdges(l0, L)` (R415). -/
def idealEdges (p : Params) (l0 : Bool) (levels : List Bool) : List Instr := idealEdgesFrom p 0 l0 none levels

end Sys2Proof.Machine
end

