-- ==== Sys2Proof/Machine/Script.lean ====
section
/-! DEFINITION. The text syntax of operation scripts and the pseudo-operations (spec/30_encoding.md R360, R361).
A text is a list of characters. DESIGN CHOICE: log entry 14 says what R360 leaves open. -/

namespace Sys2Proof.Machine

open Sys2Proof.Config

/-- A script line's operation or pseudo-operation, its numbers as written (R360, R361). -/
inductive ScriptOp where
  | tick
  | edge (rising : Bool) (iv : Nat)
  | ovf
  | txw (idx byte : Nat)
  | txs (len : Nat)
  | take (maxlen : Nat)
  | reset
  | word (w : Nat)
  | ticks (n : Nat)
  | txload (bytes : List Nat)
  | send (bytes : List Nat)
  | rxframe (bytes : List Nat)
  deriving DecidableEq, Repr

/-- A number in a field of `n` bits; none where it is too large: a syntax error, it is not truncated (R360). -/
def fieldOf (n v : Nat) : Option (BitVec n) := if v < 2 ^ n then some (BitVec.ofNat n v) else none

/-- The bytes of an operand list; none where one is above 255. -/
def bytesOf : List Nat → Option (List Byte)
  | []      => some []
  | v :: vs =>
    match fieldOf 8 v, bytesOf vs with
    | some b, some bs => some (b :: bs)
    | _,      _       => none

/-- `TXW k, b0`, `TXW k+1, b1`, ... (R361). -/
def loadOps (k : Nat) : List Byte → List Instr
  | []      => []
  | b :: bs => .txWrite (BitVec.ofNat 16 k) b :: loadOps (k + 1) bs

/-- `n` copies of TICK (R361). -/
def tickOps (n : Nat) : List Instr := List.replicate n .tick

/-- The expansion of `SEND` (R361): load, start, and the TICKs that the frame consumes. -/
def sendOps (bs : List Byte) : List Instr :=
  loadOps 0 bs ++ .txStart (BitVec.ofNat 16 bs.length) :: tickOps (2 * (wireBits bs).length)

/-- The expansion of `RXFRAME` (R361): the edges of the ideal channel from a low line. -/
def rxFrameOps (p : Params) (bs : List Byte) : List Instr := idealEdges p false (txLevels bs)

/-- One operation with one field. -/
def oneField {n : Nat} (v : Nat) (f : BitVec n → Instr) : Option (List Word) :=
  (fieldOf n v).map fun x => [encode (f x)]

/-- The words of a script operation; none for a syntax error (R360, R361). -/
def assemble (p : Params) : ScriptOp → Option (List Word)
  | .tick         => some [encode .tick]
  | .edge dir iv  => oneField iv (.edge dir)
  | .ovf          => some [encode .overflow]
  | .txw idx b    =>
    match fieldOf 16 idx, fieldOf 8 b with
    | some i, some d => some [encode (.txWrite i d)]
    | _,      _      => none
  | .txs len      => oneField len .txStart
  | .take len     => oneField len .take
  | .reset        => some [encode .reset]
  | .word w       => (fieldOf 32 w).map fun x => [x]
  | .ticks n      => some ((tickOps n).map encode)
  | .txload bytes => if bytes.length ≤ 2 ^ 16 then (bytesOf bytes).map fun bs => (loadOps 0 bs).map encode else none
  | .send bytes   => if bytes.length < 2 ^ 16 then (bytesOf bytes).map fun bs => (sendOps bs).map encode else none
  | .rxframe bytes => (bytesOf bytes).map fun bs => (rxFrameOps p bs).map encode

/-! ### Text -/

/-- A token of a line. -/
inductive Token where
  | text (cs : List Char)
  | comma
  deriving DecidableEq, Repr

/-- Close the token whose characters, last first, are `acc`. -/
def flushToken (acc : List Char) (rest : List Token) : List Token :=
  match acc with
  | []     => rest
  | c :: l => .text (c :: l).reverse :: rest

/-- Cut a line into tokens: blanks and tabs separate, a comma is a token of its own. -/
def tokens (acc : List Char) : List Char → List Token
  | []      => flushToken acc []
  | c :: cs =>
    if c = ' ' ∨ c = '\t' ∨ c = '\r' then flushToken acc (tokens [] cs)
    else if c = ',' then flushToken acc (.comma :: tokens [] cs)
    else tokens (c :: acc) cs

/-- A digit's value in the given base. -/
def digitOf (base : Nat) (c : Char) : Option Nat :=
  let n := c.toNat
  let v := if 48 ≤ n ∧ n ≤ 57 then n - 48
    else if 65 ≤ n ∧ n ≤ 70 then n - 55
    else if 97 ≤ n ∧ n ≤ 102 then n - 87
    else base
  if v < base then some v else none

/-- The value of digits in the given base, most significant first, after the value `acc`. -/
def digitsOf (base acc : Nat) : List Char → Option Nat
  | []      => some acc
  | c :: cs =>
    match digitOf base c with
    | some d => digitsOf base (acc * base + d) cs
    | none   => none

/-- "A number is decimal, or hexadecimal with a `0x` prefix" (R360). -/
def numberOf : List Char → Option Nat
  | []                    => none
  | '0' :: 'x' :: []      => none
  | '0' :: 'x' :: c :: cs => digitsOf 16 0 (c :: cs)
  | c :: cs               => digitsOf 10 0 (c :: cs)

/-- The operands after the first: each a comma and then a token. -/
def moreOperands : List Token → Option (List (List Char))
  | []                        => some []
  | .comma :: .text t :: rest => (moreOperands rest).map fun ts => t :: ts
  | _                         => none

/-- The operands of a line, with a comma between each two. -/
def operandsOf : List Token → Option (List (List Char))
  | []              => some []
  | .text t :: rest => (moreOperands rest).map fun ts => t :: ts
  | _               => none

/-- The numbers of an operand list. -/
def numbersOf : List (List Char) → Option (List Nat)
  | []      => some []
  | t :: ts =>
    match numberOf t, numbersOf ts with
    | some v, some vs => some (v :: vs)
    | _,      _       => none

/-- The operation of a keyword and its numbers, for the keywords whose operands are all numbers (R360, R361). -/
def keywordOp (key : List Char) (vs : List Nat) : Option ScriptOp :=
  if key = ['T', 'X', 'L', 'O', 'A', 'D'] then some (.txload vs)
  else if key = ['S', 'E', 'N', 'D'] then some (.send vs)
  else if key = ['R', 'X', 'F', 'R', 'A', 'M', 'E'] then some (.rxframe vs)
  else
    match vs with
    | []     =>
      if key = ['T', 'I', 'C', 'K'] then some .tick
      else if key = ['O', 'V', 'F'] then some .ovf
      else if key = ['R', 'E', 'S', 'E', 'T'] then some .reset
      else none
    | [v]    =>
      if key = ['T', 'X', 'S'] then some (.txs v)
      else if key = ['T', 'A', 'K', 'E'] then some (.take v)
      else if key = ['T', 'I', 'C', 'K', 'S'] then some (.ticks v)
      else if key = ['.', 'w', 'o', 'r', 'd'] then some (.word v)
      else none
    | [i, b] => if key = ['T', 'X', 'W'] then some (.txw i b) else none
    | _      => none

/-- The operation of a keyword and its operands: EDGE's first operand is `R` or `F` (R360). -/
def lineOp (key : List Char) (args : List (List Char)) : Option ScriptOp :=
  if key = ['E', 'D', 'G', 'E'] then
    match args with
    | [['R'], t] => (numberOf t).map (.edge true)
    | [['F'], t] => (numberOf t).map (.edge false)
    | _          => none
  else
    match numbersOf args with
    | some vs => keywordOp key vs
    | none    => none

/-- A line's tokens: nothing for a blank line, else a keyword and its operands. -/
def tokensOp : List Token → Option (Option ScriptOp)
  | []                => some none
  | .text key :: rest =>
    match operandsOf rest with
    | some args => (lineOp key args).map some
    | none      => none
  | .comma :: _       => none

/-- The line without its leading blanks. -/
def dropBlanks : List Char → List Char
  | []      => []
  | c :: cs => if c = ' ' ∨ c = '\t' then dropBlanks cs else c :: cs

/-- Read one line: an operation, a pseudo-operation, a blank, or a comment starting with `;` (R360). The outer none is a
syntax error, the inner none a line without an operation. -/
def parseLine (l : List Char) : Option (Option ScriptOp) :=
  match dropBlanks l with
  | ';' :: _ => some none
  | cs       => tokensOp (tokens [] cs)

/-- Cut a text into lines. -/
def linesOf (acc : List Char) : List Char → List (List Char)
  | []      => [acc.reverse]
  | c :: cs => if c = '\n' then acc.reverse :: linesOf [] cs else linesOf (c :: acc) cs

/-- The words of a list of lines; none for a syntax error in any of them. -/
def assembleLines (p : Params) : List (List Char) → Option (List Word)
  | []      => some []
  | l :: ls =>
    match parseLine l, assembleLines p ls with
    | some none,     some rest => some rest
    | some (some o), some rest => (assemble p o).map fun ws => ws ++ rest
    | _,             _         => none

/-- The words of an operation script (R360). -/
def assembleScript (p : Params) (script : List Char) : Option (List Word) := assembleLines p (linesOf [] script)

end Sys2Proof.Machine
end

