-- ==== Sys2Proof/Safety.lean ====
section
/-! DEFINITION. The invariants of spec/10_state.md R150, and what claims call unchanged: the receiver's side, the
transmitter's side (spec/20_memory.md R234), the model's surroundings. -/

namespace Sys2Proof.Safety

open Sys2Proof.Config Sys2Proof.Machine

/-- Every bit below `n` of the frame store has been written (spec/20_memory.md R213). -/
def WrittenBelow (s : State) (n : Nat) : Prop := ∀ i < n, ∃ v, Memory.read s.frame i = some v

/-- The `n` bits before the cursor are all 1 (spec/10_state.md R150 item 5). -/
def OnesBeforeCursor (s : State) (n : Nat) : Prop :=
  ∀ k < n, Memory.read s.frame (s.wrBits.toNat - n + k) = some true

/-- The frame in flight has a level left to drive, and its payload lies in `TxMem` (spec/10_state.md R150 item 8). -/
def TxInBounds (s : State) : Prop :=
  ∃ p, payload? s = some p ∧ s.txH.toNat < (txLevels p).length

/-- The invariants of spec/10_state.md R150 over the model's state. Item 1 is the type of `rxState`, item 3 the width of
`run`, item 7 a property of TICK. `canonical` and `writtenBelow` are the model's own: the two arrays keep their form,
and the store's bits below the cursor are written while a frame is received or awaits TAKE (spec/20_memory.md R213). -/
structure LinkInv (s : State) : Prop where
  /-- spec/00_scope.md R10 -/
  legal         : s.params.legal = true
  /-- item 2 -/
  syncCount     : s.rxState = .sync → 1 ≤ s.syncN.toNat ∧ s.syncN.toNat ≤ 7
  /-- item 4 -/
  cursor        : s.wrBits.toNat ≤ frameBits s
  /-- item 5, first half -/
  runInFrame    : s.rxState = .data → s.run.toNat ≤ s.wrBits.toNat
  /-- item 5, second half -/
  runIsOnes     : s.rxState = .data → OnesBeforeCursor s s.run.toNat
  /-- item 6 -/
  completeWaits : s.complete = true → s.rxState ≠ .data
  /-- item 8 -/
  sending       : s.txActive = true → TxInBounds s
  /-- spec/20_memory.md R213 -/
  written       : s.rxState = .data ∨ s.complete = true → WrittenBelow s s.wrBits.toNat
  /-- The frame store's list is canonical and inside the store (R210). -/
  frameForm     : Memory.wf s.frame = true ∧ Memory.below (frameBits s) s.frame = true
  /-- `TxMem`'s list is canonical and inside `TxMem` (R201). -/
  txForm        : Memory.wf s.txMem = true ∧ Memory.below s.params.txBufBytes s.txMem = true

/-- The receiver registers, but for the frame store's contents (spec/10_state.md R110 to R131), are the same. -/
structure SameReceiverRegs (s t : State) : Prop where
  rxState     : t.rxState = s.rxState
  syncN       : t.syncN = s.syncN
  pendingHalf : t.pendingHalf = s.pendingHalf
  lastBit     : t.lastBit = s.lastBit
  run         : t.run = s.run
  wrBits      : t.wrBits = s.wrBits
  complete    : t.complete = s.complete

/-- Every bit of the frame store, and every byte, reads as before. -/
structure SameFrameStore (s t : State) : Prop where
  bits  : ∀ i, frameBit t i = frameBit s i
  bytes : ∀ j, frameByte t j = frameByte s j

/-- Every byte of `TxMem` reads as before. -/
def SameTxMem (s t : State) : Prop := ∀ j, txByte t j = txByte s j

/-- The transmitter registers (spec/10_state.md R140 to R144) are the same. -/
structure SameTransmitterRegs (s t : State) : Prop where
  txActive   : t.txActive = s.txActive
  txLen      : t.txLen = s.txLen
  txH        : t.txH = s.txH
  lineOut    : t.lineOut = s.lineOut
  pulseReady : t.pulseReady = s.pulseReady

/-- The parameters, the words still presented and the earlier history are the same, and one event was recorded. -/
structure SameSurroundings (s t : State) : Prop where
  params  : t.params = s.params
  port    : t.port = s.port
  history : ∃ e, t.history = e :: s.history

/-- The block's state is the same: every field of spec/10_state.md R100, and the draws. -/
structure SameBlock (s t : State) : Prop where
  receiver    : SameReceiverRegs s t
  frame       : t.frame = s.frame
  transmitter : SameTransmitterRegs s t
  txMem       : t.txMem = s.txMem
  draws       : t.draws = s.draws

/-- The operations of the transmitter's side (spec/20_memory.md R234). -/
def txSide : Instr → Bool
  | .tick        => true
  | .txWrite _ _ => true
  | .txStart _   => true
  | .edge _ _    => false
  | .overflow    => false
  | .take _      => false
  | .reset       => false

/-- The operations of the receiver's side (spec/20_memory.md R234). -/
def rxSide : Instr → Bool
  | .edge _ _    => true
  | .overflow    => true
  | .take _      => true
  | .tick        => false
  | .txWrite _ _ => false
  | .txStart _   => false
  | .reset       => false

/-- In DATA an interval of class `c` recovers the wire bit `v`: two shorts repeat the last bit, one long flips it
(spec/41_receive.md R525). -/
def Recovers (s : State) (c : IntervalClass) (v : Bool) : Prop :=
  (c = .short ∧ s.pendingHalf = true ∧ v = s.lastBit) ∨ (c = .long ∧ s.pendingHalf = false ∧ v = !s.lastBit)

/-- The state in which a recovered bit `v` reaches the de-escaper: no half is pending and `v` is the last bit
(spec/41_receive.md R525). -/
def afterRecovery (v : Bool) (s : State) : State := { s with pendingHalf := false, lastBit := v }

/-- The bit index of the frame store that an EDGE of interval `iv` stores to, if it stores a bit: the cursor, in DATA,
when a bit is recovered that is neither stuffed nor the terminator's last, and the store has room
(spec/41_receive.md R540, R544). -/
def edgeStoresAt (iv : BitVec 16) (s : State) : Option Nat :=
  if s.rxState = .data ∧ (classify s.params (ivOperand iv) = .short ∧ s.pendingHalf = true
      ∨ classify s.params (ivOperand iv) = .long ∧ s.pendingHalf = false)
    ∧ s.run.toNat ≠ runLimit ∧ s.wrBits.toNat < frameBits s
  then some s.wrBits.toNat else none

/-- How many 1s a bit list ends in (spec/40_transmit.md R404 item 3). -/
def trailingOnes (x : List Bool) : Nat := (x.reverse.takeWhile fun b => b).length

/-- Remove, after every 7 consecutive 1s, the bit that follows them (spec/40_transmit.md R404 item 4), from a value of
the run counter. -/
def destuffFrom (run : Nat) : List Bool → List Bool
  | []      => []
  | b :: bs => if run = runLimit then destuffFrom 0 bs else b :: destuffFrom (countRun run b) bs

/-- The bits that `destuffFrom` removes. -/
def removedFrom (run : Nat) : List Bool → List Bool
  | []      => []
  | b :: bs => if run = runLimit then b :: removedFrom 0 bs else removedFrom (countRun run b) bs

end Sys2Proof.Safety
end

