-- ==== Sys2Proof/Certificates/Slice0/Obligations.lean ====
section
/-! DEFINITION. The statements for the provers, each from the numbered rules of spec/. -/

open Sys2Proof Sys2Proof.Config Sys2Proof.Machine Sys2Proof.Safety

/-! ### Encoding -/

/-- spec/30_encoding.md R301, R310, R351: decoding the word of any operation gives it back, with every operand at every
value. -/
def Obligations.DecodeEncodeRoundTrip : Prop := ∀ i : Instr, decode (encode i) = .op i

/-- spec/30_encoding.md R300, R301, R351: a word that spells an operation is that operation's word; no bit is dropped. -/
def Obligations.EncodeDecodeRoundTrip : Prop := ∀ (w : Word) (i : Instr), decode w = .op i → encode i = w

/-- spec/30_encoding.md R311: "A word `w` spells an operation exactly when `(w & mask) = match`", and no word matches two
rows. -/
def Obligations.WordSpellsOpExactlyWhenRowMatches : Prop :=
  ∀ w : Word,
    (∀ r ∈ opTable, w &&& r.mask = r.pattern ↔ ∃ i, decode w = .op i ∧ i.row = r ∧ i.mnemonic = r.mnemonic)
    ∧ ∀ r ∈ opTable, ∀ q ∈ opTable, w &&& r.mask = r.pattern → w &&& q.mask = q.pattern → r = q

/-- spec/30_encoding.md R350: the two cases of an illegal word are exactly the words that spell nothing. -/
def Obligations.IllegalWordSpellsNothing : Prop :=
  ∀ w : Word, decode w = .refuse .reserved ↔
    (opField w).toNat = 0 ∨ 8 ≤ (opField w).toNat
      ∨ ∃ r ∈ opTable, opField r.pattern = opField w ∧ w &&& r.mask ≠ r.pattern

/-- spec/95_test_vectors.md V2.1: the sample words, by the layouts of spec/30_encoding.md R301. -/
def Obligations.SampleWordsDecode : Prop :=
  decode 0x00000000#32 = .refuse .reserved ∧ decode 0x10000000#32 = .op .tick
  ∧ decode 0x10000001#32 = .refuse .reserved ∧ decode 0x2001007D#32 = .op (.edge true 125#16)
  ∧ decode 0x200000FA#32 = .op (.edge false 250#16) ∧ decode 0x2001FFFF#32 = .op (.edge true 65535#16)
  ∧ decode 0x20020000#32 = .refuse .reserved ∧ decode 0x30000000#32 = .op .overflow
  ∧ decode 0x38000000#32 = .refuse .reserved ∧ decode 0x40002A4F#32 = .op (.txWrite 42#16 0x4F#8)
  ∧ decode 0x407FFFFF#32 = .op (.txWrite 32767#16 0xFF#8) ∧ decode 0x41000000#32 = .refuse .reserved
  ∧ decode 0x50000006#32 = .op (.txStart 6#16) ∧ decode 0x50010006#32 = .refuse .reserved
  ∧ decode 0x60000040#32 = .op (.take 64#16) ∧ decode 0x6000FFFF#32 = .op (.take 65535#16)
  ∧ decode 0x70000000#32 = .op .reset ∧ decode 0x70000010#32 = .refuse .reserved
  ∧ decode 0x80000000#32 = .refuse .reserved ∧ decode 0xF0000000#32 = .refuse .reserved

/-- spec/30_encoding.md R360: the word of each of the nine spellings once its line is parsed, and an oversized value is a
syntax error, not truncated. That `.word` takes a number below 2 to the 32 is the model's choice, log entry 14. -/
def Obligations.ScriptSpellingsGiveTheirWords : Prop :=
  ∀ p : Params,
    assemble p .tick = some [0x10000000#32] ∧ assemble p .ovf = some [0x30000000#32]
    ∧ assemble p .reset = some [0x70000000#32]
    ∧ (∀ iv, assemble p (.edge true iv)
        = if iv ≤ 65535 then some [0x20010000#32 ||| BitVec.ofNat 32 iv] else none)
    ∧ (∀ iv, assemble p (.edge false iv)
        = if iv ≤ 65535 then some [0x20000000#32 ||| BitVec.ofNat 32 iv] else none)
    ∧ (∀ idx b, assemble p (.txw idx b)
        = if idx ≤ 65535 ∧ b ≤ 255
          then some [0x40000000#32 ||| BitVec.ofNat 32 idx <<< 8 ||| BitVec.ofNat 32 b] else none)
    ∧ (∀ len, assemble p (.txs len)
        = if len ≤ 65535 then some [0x50000000#32 ||| BitVec.ofNat 32 len] else none)
    ∧ (∀ len, assemble p (.take len)
        = if len ≤ 65535 then some [0x60000000#32 ||| BitVec.ofNat 32 len] else none)
    ∧ (∀ w, assemble p (.word w) = if w < 4294967296 then some [BitVec.ofNat 32 w] else none)

/-! ### The step -/

/-- spec/20_memory.md R230, spec/10_state.md R102: a step on a legal parameter set takes the next word off the port and,
where it spells an operation, is that operation's meaning. -/
def Obligations.StepAppliesDecodedOp : Prop :=
  ∀ (s : State) (w : Word) (rest : List Word) (i : Instr),
    s.params.legal = true → s.port = w :: rest → decode w = .op i → step s = exec i { s with port := rest }

/-- spec/30_encoding.md R350: a refused word changes no state and returns no result, and a mark is kept. That the run
goes on after it is the model's reading, log entry 2. -/
def Obligations.StepMarksRefusedWord : Prop :=
  ∀ (s : State) (w : Word) (rest : List Word),
    s.params.legal = true → s.port = w :: rest → decode w = .refuse .reserved →
    step s = .next { s with port := rest, history := ⟨.refuse .reserved, none, status s⟩ :: s.history }

/-- spec/00_scope.md R10: a parameter set that violates any of the conditions is refused, and no other is. -/
def Obligations.IllegalParametersRefused : Prop :=
  ∀ s : State, step s = .refused .illegalParameters ↔
    ¬ ((0 < s.params.shortMin ∧ s.params.shortMin ≤ s.params.shortMax ∧ s.params.shortMax < s.params.longMin
          ∧ s.params.longMin ≤ s.params.longMax ∧ s.params.longMax < s.params.intervalMax
          ∧ s.params.intervalMax ≤ 65535)
        ∧ (1 ≤ s.params.bufBytes ∧ s.params.bufBytes ≤ 8191) ∧ s.params.txBufBytes ≤ 65535)

/-- spec/60_exceptions.md R745: with nothing presented the state persists. The model's choice of a step that changes
nothing is log entry 1. -/
def Obligations.NothingPresentedPersists : Prop :=
  ∀ s : State, s.params.legal = true → s.port = [] → step s = .next s

/-- spec/00_scope.md R16, spec/30_encoding.md R340: an operation that completes has exactly one outcome, which is no
refusal; only TAKE returns a result, and its count is the number of its bytes. The status recorded is the status after
it, and the status vector of every state is `tx_active`, `complete` and `line_out`, bits 0, 1 and 2 (spec/10_state.md
R147). -/
def Obligations.OneOutcomeAndOnlyTakeReturns : Prop :=
  (∀ s : State, (status s).getLsbD 0 = s.txActive ∧ (status s).getLsbD 1 = s.complete
    ∧ (status s).getLsbD 2 = s.lineOut)
  ∧ ∀ (i : Instr) (s t : State), exec i s = .next t →
    ∃ e : Event, t.history = e :: s.history ∧ e.status = status t ∧ (∀ r, e.outcome ≠ .refuse r)
      ∧ (e.result.isSome = true ↔ ∃ len, i = .take len)
      ∧ ∀ r, e.result = some r → r.count.toNat = r.data.length

/-! ### Reset -/

/-- spec/43_control.md R650, R652: RESET completes in every state and leaves every register at its table value, the line
low, and both arrays at the free values of a new draw, with no cell written, as at power-on. What stands outside the block
is unchanged. That the draws are numbered, and that a RESET takes the next number, is the model's choice, log entry 5. -/
def Obligations.ResetLeavesTheTable : Prop :=
  ∀ s : State, ∃ t, exec .reset s = .next t
    ∧ t.rxState = .idle ∧ t.syncN = 0#3 ∧ t.pendingHalf = false ∧ t.lastBit = false ∧ t.run = 0#3
    ∧ t.wrBits = 0#16 ∧ t.complete = false
    ∧ t.txActive = false ∧ t.txLen = 0#16 ∧ t.txH = 0#21 ∧ t.lineOut = false ∧ t.pulseReady = false
    ∧ t.draws = s.draws + 1 ∧ (∀ j, txByte t j = txDraw t.draws j) ∧ (∀ i, frameBit t i = frameDraw t.draws i)
    ∧ SameReceiverRegs State.reset t ∧ SameTransmitterRegs State.reset t
    ∧ t.frame = State.reset.frame ∧ t.txMem = State.reset.txMem
    ∧ t.params = s.params ∧ t.port = s.port ∧ t.history = ⟨.ok [], none, 0#3⟩ :: s.history

/-! ### The transmit operations -/

/-- spec/40_transmit.md R420: TICK, idle and sending. -/
def Obligations.TickRule : Prop :=
  ∀ s : State,
    (s.txActive = false → exec .tick s = .next (State.record (.ok []) none { s with pulseReady := true }))
    ∧ (s.txActive = true → s.txLen.toNat ≤ s.params.txBufBytes →
        ∀ h : s.txH.toNat < (txLevels ((List.range s.txLen.toNat).map (txByte s))).length,
          exec .tick s = .next (State.record (.ok []) none
            { s with
              pulseReady := false
              lineOut := (txLevels ((List.range s.txLen.toNat).map (txByte s)))[s.txH.toNat]
              txH := s.txH + 1#21
              txActive := decide ((s.txH + 1#21).toNat
                ≠ (txLevels ((List.range s.txLen.toNat).map (txByte s))).length) }))

/-- The model's choice, log entry 8: past the end of the frame, a state that spec/10_state.md R150 rules out, TICK still
completes; it advances `tx_h` and consumes the pulse, whatever level it drives. -/
def Obligations.TickPastTheEndCompletes : Prop :=
  ∀ s : State, s.txActive = true → s.txLen.toNat ≤ s.params.txBufBytes →
    (txLevels ((List.range s.txLen.toNat).map (txByte s))).length ≤ s.txH.toNat →
    ∃ t, exec .tick s = .next t ∧ t.txH = s.txH + 1#21 ∧ t.pulseReady = false ∧ t.txLen = s.txLen
      ∧ SameReceiverRegs s t ∧ t.frame = s.frame ∧ t.txMem = s.txMem ∧ t.draws = s.draws ∧ SameSurroundings s t

/-- spec/40_transmit.md R430: TX_WRITE while busy, outside `TxMem`, and otherwise. -/
def Obligations.TxWriteRule : Prop :=
  ∀ (s : State) (idx : BitVec 16) (data : Byte),
    (s.txActive = true → exec (.txWrite idx data) s = .next (State.record (.ignore .txBusy) none s))
    ∧ (s.txActive = false → s.params.txBufBytes ≤ idx.toNat →
        exec (.txWrite idx data) s = .next (State.record (.ignore .txIndex) none s))
    ∧ (s.txActive = false → idx.toNat < s.params.txBufBytes →
        ∃ t, exec (.txWrite idx data) s = .next t
          ∧ txByte t idx.toNat = data ∧ (∀ j, j ≠ idx.toNat → txByte t j = txByte s j)
          ∧ SameTransmitterRegs s t ∧ SameReceiverRegs s t ∧ t.frame = s.frame ∧ SameFrameStore s t
          ∧ t.draws = s.draws ∧ t.params = s.params ∧ t.port = s.port
          ∧ t.history = ⟨.ok [], none, status s⟩ :: s.history)

/-- spec/40_transmit.md R440: TX_START while busy, too long, and otherwise; the line does not change. -/
def Obligations.TxStartRule : Prop :=
  ∀ (s : State) (len : BitVec 16),
    (s.txActive = true → exec (.txStart len) s = .next (State.record (.ignore .txBusy) none s))
    ∧ (s.txActive = false → s.params.txBufBytes < len.toNat →
        exec (.txStart len) s = .next (State.record (.ignore .txLength) none s))
    ∧ (s.txActive = false → len.toNat ≤ s.params.txBufBytes →
        exec (.txStart len) s = .next (State.record (.ok []) none
          { s with txLen := len, txH := 0#21, pulseReady := false, txActive := true }))

/-- spec/40_transmit.md R421: a frame consumes exactly `2*|WireBits|` TICKs, drives `TxLevels` in order, and the last
TICK drives 1 and clears `tx_active`; further TICKs hold the level. -/
def Obligations.FrameConsumesItsTicks : Prop :=
  ∀ (s : State) (len : BitVec 16) (p : List Byte),
    s.txActive = false → len.toNat ≤ s.params.txBufBytes → p = (List.range len.toNat).map (txByte s) →
    (∀ k, 1 ≤ k → k < 2 * (wireBits p).length →
      ∃ t, execAll (.txStart len :: List.replicate k .tick) s = .next t
        ∧ t.txActive = true ∧ t.txH.toNat = k ∧ (txLevels p)[k - 1]? = some t.lineOut)
    ∧ ∀ m, ∃ t, execAll (.txStart len :: List.replicate (2 * (wireBits p).length + m) .tick) s = .next t
        ∧ t.txActive = false ∧ t.txH.toNat = 2 * (wireBits p).length ∧ t.lineOut = true

/-- spec/30_encoding.md R361: the expansion of SEND loads the payload and ends with `tx_busy` 0 and the line high. -/
def Obligations.SendExpansionEndsIdle : Prop :=
  ∀ (s : State) (bs : List Byte),
    s.txActive = false → bs.length ≤ s.params.txBufBytes → bs.length < 2 ^ 16 →
    ∃ t, execAll (sendOps bs) s = .next t ∧ t.txActive = false ∧ t.lineOut = true
      ∧ t.txLen.toNat = bs.length ∧ ∀ (j : Nat) (h : j < bs.length), txByte t j = bs[j]

/-! ### The wire format -/

/-- spec/40_transmit.md R422: "This sequencer gives the same levels in the same order." -/
def Obligations.SequencerDrivesTxLevels : Prop := ∀ p : List Byte, sequencerLevels p = txLevels p

/-- spec/40_transmit.md R410, R411: two levels a wire bit; the first half is low for a 1 and high for a 0, the second half
the other. -/
def Obligations.TxLevelsAreManchester : Prop :=
  ∀ p : List Byte, (txLevels p).length = 2 * (wireBits p).length
    ∧ ∀ (k : Nat) (h : k < (wireBits p).length),
        (txLevels p)[2 * k]? = some (!(wireBits p)[k]) ∧ (txLevels p)[2 * k + 1]? = some (wireBits p)[k]

/-- spec/40_transmit.md R404 item 1: no run of more than 7 consecutive 1s. -/
def Obligations.StuffLeavesNoLongRun : Prop := ∀ x : List Bool, ¬ List.replicate 8 true <:+: stuff x

/-- spec/40_transmit.md R404 item 2: one stuffed bit for each full 7 of every maximal run of 1s, and at most a seventh of
the bits. -/
def Obligations.StuffedBitCount : Prop :=
  ∀ x : List Bool,
    (stuff x).length = x.length + ((x.splitOn false).map fun run => run.length / 7).sum
    ∧ (stuff x).length ≤ x.length + x.length / 7

/-- spec/40_transmit.md R404 item 3: the trailing 1s of the stuffed list, and the stuffed 0 at its end. -/
def Obligations.StuffTrailingOnes : Prop :=
  ∀ x : List Bool,
    trailingOnes (stuff x) = trailingOnes x % 7
    ∧ (0 < trailingOnes x → trailingOnes x % 7 = 0 → (List.replicate 7 true ++ [false]) <:+ stuff x)

/-- spec/40_transmit.md R404 item 4: removing the bit after every 7 consecutive 1s recovers the list, and every removed
bit is a 0. -/
def Obligations.DestuffingInvertsStuffing : Prop :=
  ∀ x : List Bool, destuffFrom 0 (stuff x) = x ∧ ∀ b ∈ removedFrom 0 (stuff x), b = false

/-- spec/40_transmit.md R406: the length of a frame. -/
def Obligations.FrameLength : Prop :=
  ∀ p : List Byte,
    (wireBits p).length = 16 + 8 * p.length + ((stuff (payloadBits p)).length - 8 * p.length)
    ∧ (wireBits p).length ≤ 16 + 8 * p.length + 8 * p.length / 7

/-- spec/40_transmit.md R412: the transitions of a frame's levels. -/
def Obligations.LineTransitions : Prop :=
  ∀ p : List Byte,
    (∀ (k : Nat) (h : k < (wireBits p).length),
      (txLevels p)[2 * k]? ≠ (txLevels p)[2 * k + 1]?
      ∧ ((txLevels p)[2 * k + 1]? = some true ↔ (wireBits p)[k] = true))
    ∧ (∀ (k : Nat) (h : k + 1 < (wireBits p).length),
      (txLevels p)[2 * k + 1]? ≠ (txLevels p)[2 * k + 2]? ↔ (wireBits p)[k] = (wireBits p)[k + 1])
    ∧ (txLevels p)[0]? = some false ∧ (∀ l0 : Bool, (txLevels p)[0]? ≠ some l0 ↔ l0 = true)
    ∧ (txLevels p).getLast? = some true

/-! ### The receive operations -/

/-- spec/41_receive.md R511: the classifier, for a legal parameter set. -/
def Obligations.ClassifyWindows : Prop :=
  ∀ (p : Params) (iv : Nat), p.legal = true →
    (classify p iv = .short ↔ p.shortMin ≤ iv ∧ iv ≤ p.shortMax)
    ∧ (classify p iv = .long ↔ p.longMin ≤ iv ∧ iv ≤ p.longMax)
    ∧ (classify p iv = .bad ↔
        ¬ (p.shortMin ≤ iv ∧ iv ≤ p.shortMax) ∧ ¬ (p.longMin ≤ iv ∧ iv ≤ p.longMax))

/-- spec/41_receive.md R515: EDGE in IDLE, whatever the interval. -/
def Obligations.EdgeInIdle : Prop :=
  ∀ (s : State) (iv : BitVec 16), s.rxState = .idle →
    exec (.edge true iv) s
      = .next (State.record (.ok [.syncStart]) none { s with rxState := .sync, syncN := 1#3 })
    ∧ exec (.edge false iv) s = .next (State.record (.ok []) none s)

/-- spec/41_receive.md R520, R521: EDGE in SYNC, whatever the direction. -/
def Obligations.EdgeInSync : Prop :=
  ∀ (s : State) (dir : Bool) (iv : BitVec 16), s.rxState = .sync →
    (classify s.params iv.toNat ≠ .long → exec (.edge dir iv) s
      = .next (State.record (.desync .syncNotLong []) none { s with rxState := .idle }))
    ∧ (classify s.params iv.toNat = .long → s.syncN.toNat + 1 < 8 → exec (.edge dir iv) s
      = .next (State.record (.ok []) none { s with syncN := s.syncN + 1#3 }))
    ∧ (classify s.params iv.toNat = .long → s.syncN.toNat + 1 = 8 → s.complete = true → exec (.edge dir iv) s
      = .next (State.record (.desync .lockWhileComplete []) none { s with rxState := .idle }))
    ∧ (classify s.params iv.toNat = .long → s.syncN.toNat + 1 = 8 → s.complete = false → exec (.edge dir iv) s
      = .next (State.record (.ok [.lock]) none
          { s with rxState := .data, pendingHalf := false, lastBit := false, run := 0#3, wrBits := 0#16 }))

/-- spec/41_receive.md R525: EDGE in DATA, whatever the direction, down to what `WriteBit` (R540) does with a recovered
bit. -/
def Obligations.EdgeInData : Prop :=
  ∀ (s : State) (dir : Bool) (iv : BitVec 16), s.rxState = .data →
    (classify s.params iv.toNat = .short → s.pendingHalf = false → exec (.edge dir iv) s
      = .next (State.record (.ok []) none { s with pendingHalf := true }))
    ∧ (classify s.params iv.toNat = .short → s.pendingHalf = true → exec (.edge dir iv) s
      = concludeRx (writeBit s.lastBit { s with pendingHalf := false }))
    ∧ (classify s.params iv.toNat = .long → s.pendingHalf = true → exec (.edge dir iv) s
      = .next (State.record (.desync .dataLongAfterShort []) none { s with rxState := .idle }))
    ∧ (classify s.params iv.toNat = .long → s.pendingHalf = false → exec (.edge dir iv) s
      = concludeRx (writeBit (!s.lastBit) { s with lastBit := !s.lastBit }))
    ∧ (classify s.params iv.toNat = .bad → exec (.edge dir iv) s
      = .next (State.record (.desync .dataBadInterval []) none { s with rxState := .idle }))

/-- spec/41_receive.md R544, spec/20_memory.md R211: a recovered bit is stored at the cursor, and every other bit of the
store is unchanged. -/
def Obligations.EdgeStoresBit : Prop :=
  ∀ (s : State) (dir v : Bool) (iv : BitVec 16),
    s.rxState = .data → Recovers s (classify s.params iv.toNat) v → s.run.toNat ≠ 7 →
    s.wrBits.toNat < 8 * s.params.bufBytes →
    ∃ t, exec (.edge dir iv) s = .next t
      ∧ frameBit t s.wrBits.toNat = v ∧ (∀ i, i ≠ s.wrBits.toNat → frameBit t i = frameBit s i)
      ∧ t.wrBits = s.wrBits + 1#16 ∧ t.run = (if v then s.run + 1#3 else 0#3)
      ∧ t.rxState = .data ∧ t.pendingHalf = false ∧ t.lastBit = v ∧ t.syncN = s.syncN ∧ t.complete = s.complete
      ∧ SameTransmitterRegs s t ∧ t.txMem = s.txMem ∧ t.draws = s.draws ∧ t.params = s.params ∧ t.port = s.port
      ∧ t.history = ⟨.ok [.bit v], none, status s⟩ :: s.history

/-- spec/41_receive.md R541: a 0 after 7 stored 1s is discarded, also with the store full. -/
def Obligations.EdgeDiscardsStuffedBit : Prop :=
  ∀ (s : State) (dir : Bool) (iv : BitVec 16),
    s.rxState = .data → Recovers s (classify s.params iv.toNat) false → s.run.toNat = 7 →
    exec (.edge dir iv) s = .next (State.record (.ok [.stuffed]) none
      { s with pendingHalf := false, lastBit := false, run := 0#3 })

/-- spec/41_receive.md R542: a 1 after 7 stored 1s is the terminator: 7 bits are retracted and the frame is complete. -/
def Obligations.EdgeCompletesFrame : Prop :=
  ∀ (s : State) (dir : Bool) (iv : BitVec 16),
    s.rxState = .data → Recovers s (classify s.params iv.toNat) true → s.run.toNat = 7 → 7 ≤ s.wrBits.toNat →
    ∃ t, exec (.edge dir iv) s = .next t
      ∧ t = State.record (.ok [.frameComplete]) none
          { s with pendingHalf := false, lastBit := true, wrBits := s.wrBits - 7#16, complete := true, rxState := .idle }
      ∧ t.wrBits.toNat = s.wrBits.toNat - 7 ∧ frameReady t = true

/-- spec/41_receive.md R543: a bit to store with the store full drops the frame. -/
def Obligations.EdgeDesyncsWhenFull : Prop :=
  ∀ (s : State) (dir v : Bool) (iv : BitVec 16),
    s.rxState = .data → Recovers s (classify s.params iv.toNat) v → s.run.toNat ≠ 7 →
    s.wrBits.toNat = 8 * s.params.bufBytes →
    exec (.edge dir iv) s = .next (State.record (.desync .capacity []) none
      { s with pendingHalf := false, lastBit := v, rxState := .idle })

/-- spec/41_receive.md R501: OVERFLOW, for a legal parameter set: no change in IDLE, a desync in SYNC and DATA. -/
def Obligations.OverflowRule : Prop :=
  ∀ s : State, s.params.legal = true →
    (s.rxState = .idle → exec .overflow s = .next (State.record (.ok []) none s))
    ∧ (s.rxState = .sync → exec .overflow s
      = .next (State.record (.desync .syncNotLong [.overflow]) none { s with rxState := .idle }))
    ∧ (s.rxState = .data → exec .overflow s
      = .next (State.record (.desync .dataBadInterval [.overflow]) none { s with rxState := .idle }))

/-- spec/41_receive.md R500 and spec/20_memory.md R211, R234: EDGE completes in every state whose cursor lies in the
store (asked of it in DATA only), and changes no bit of the store but the one it stores to, and nothing of the transmitter. -/
def Obligations.EdgeCompletesWithItsFrame : Prop :=
  ∀ (s : State) (dir : Bool) (iv : BitVec 16), (s.rxState = .data → s.wrBits.toNat ≤ 8 * s.params.bufBytes) →
    ∃ t, exec (.edge dir iv) s = .next t
      ∧ (∀ a, edgeStoresAt iv s ≠ some a → frameBit t a = frameBit s a)
      ∧ (t.syncN ≠ s.syncN → s.rxState ≠ .data) ∧ (t.pendingHalf ≠ s.pendingHalf → s.rxState ≠ .idle)
      ∧ (t.complete ≠ s.complete → s.rxState = .data)
      ∧ SameTransmitterRegs s t ∧ t.txMem = s.txMem ∧ SameTxMem s t ∧ t.draws = s.draws ∧ SameSurroundings s t

/-- spec/41_receive.md R530: an EDGE or OVERFLOW that ends in a desync leaves the decoder in IDLE and changes neither the
count, the run, the cursor, `complete` nor the store; but for cause Capacity, where the DATA rule updated them first, nor
`pending_half` nor `last_bit`. -/
def Obligations.DesyncWritesOnlyTheState : Prop :=
  ∀ (s t : State) (i : Instr) (c : DesyncCause) (ls : List Label) (e : Event),
    exec i s = .next t → t.history = e :: s.history → e.outcome = .desync c ls →
    t.rxState = .idle ∧ t.syncN = s.syncN ∧ t.run = s.run ∧ t.wrBits = s.wrBits ∧ t.complete = s.complete
      ∧ t.frame = s.frame ∧ SameTransmitterRegs s t ∧ t.txMem = s.txMem
      ∧ (c ≠ .capacity → t.pendingHalf = s.pendingHalf ∧ t.lastBit = s.lastBit)

/-! ### The frame store -/

/-- spec/20_memory.md R210: `FrameBit(i) = FrameByte(i / 8)[7 - (i mod 8)]`. -/
def Obligations.FrameByteLayout : Prop :=
  ∀ (s : State) (i : Nat), (frameByte s (i / 8)).getLsbD (7 - i % 8) = frameBit s i

/-- spec/42_frame_store.md R601: TAKE with and without a completed frame. -/
def Obligations.TakeRule : Prop :=
  ∀ (s : State) (len : BitVec 16),
    (s.complete = false → exec (.take len) s = .next (State.record (.ok []) (some ⟨0#16, []⟩) s))
    ∧ (s.complete = true → min (s.wrBits.toNat / 8) len.toNat ≤ s.params.bufBytes → exec (.take len) s
      = .next (State.record (.ok [])
          (some ⟨BitVec.ofNat 16 (min (s.wrBits.toNat / 8) len.toNat),
            (List.range (min (s.wrBits.toNat / 8) len.toNat)).map (frameByte s)⟩)
          { s with complete := false, wrBits := 0#16 }))

/-- spec/20_memory.md R213: every bit that TAKE can return was written, so its result does not depend on the draws of the
frame store (TAKE reads no byte of `TxMem`, whose draws TICK can observe), and no bit stored before the frame's lock is
observable: from a state that holds no bit of a frame (such as the one just after
lock), any two contents of the frame store give the same outcomes and results, whatever operations follow. -/
def Obligations.TakeReturnsWrittenBits : Prop :=
  (∀ (s : State) (len : BitVec 16) (d : Nat), LinkInv s → s.complete = true →
    (∀ i < 8 * min (s.wrBits.toNat / 8) len.toNat, ∃ v, Memory.read s.frame i = some v)
    ∧ ∃ t u, exec (.take len) s = .next t ∧ exec (.take len) { s with draws := d } = .next u
        ∧ t.history.head? = u.history.head?)
  ∧ ∀ (s t : State) (f : Memory Bool) (is : List Instr),
    LinkInv s → s.complete = false → (s.rxState = .data → s.wrBits = 0#16) → execAll is s = .next t →
    ∃ u, execAll is { s with frame := f } = .next u ∧ u.history = t.history

/-- spec/20_memory.md R212: only TAKE reads the frame store: whatever it holds, every other operation leaves all other
state the same, and leaves each bit of the store either as it was or with a value that does not depend on what the store
held. -/
def Obligations.OnlyTakeReadsFrameStore : Prop :=
  ∀ (i : Instr) (s t : State) (f : Memory Bool), (∀ len, i ≠ .take len) → exec i s = .next t →
    ∃ g, exec i { s with frame := f } = .next { t with frame := g }
      ∧ ∀ a, (Memory.read g a = Memory.read f a ∧ Memory.read t.frame a = Memory.read s.frame a)
        ∨ Memory.read g a = Memory.read t.frame a

/-- The model's faults, log entry 9: an access outside an array stops the machine by name. spec/10_state.md R150 rules
these states out. -/
def Obligations.OutsideAnArrayFaults : Prop :=
  (∀ s : State, s.txActive = true → s.params.txBufBytes < s.txLen.toNat → exec .tick s = .fault .txMemBounds)
  ∧ (∀ (s : State) (dir v : Bool) (iv : BitVec 16), s.rxState = .data →
      Recovers s (classify s.params iv.toNat) v → s.run.toNat ≠ 7 → 8 * s.params.bufBytes < s.wrBits.toNat →
      exec (.edge dir iv) s = .fault .frameStoreBounds)
  ∧ (∀ (s : State) (len : BitVec 16), s.complete = true →
      s.params.bufBytes < min (s.wrBits.toNat / 8) len.toNat → exec (.take len) s = .fault .frameStoreBounds)

/-! ### Whole-machine rules -/

/-- spec/20_memory.md R234: TICK, TX_WRITE and TX_START write no field of the receiver. -/
def Obligations.TransmitOpsLeaveReceiver : Prop :=
  ∀ (i : Instr) (s t : State), txSide i = true → exec i s = .next t →
    SameReceiverRegs s t ∧ t.frame = s.frame ∧ SameFrameStore s t ∧ t.draws = s.draws ∧ SameSurroundings s t
    ∧ ((∀ len, i ≠ .txStart len) → t.txLen = s.txLen)
    ∧ ((∀ idx data, i ≠ .txWrite idx data) → t.txMem = s.txMem)

/-- spec/20_memory.md R234: EDGE, OVERFLOW and TAKE write no field of the transmitter. -/
def Obligations.ReceiveOpsLeaveTransmitter : Prop :=
  ∀ (i : Instr) (s t : State), rxSide i = true → exec i s = .next t →
    SameTransmitterRegs s t ∧ t.txMem = s.txMem ∧ SameTxMem s t ∧ t.draws = s.draws ∧ SameSurroundings s t
    ∧ ((∀ dir iv, i ≠ .edge dir iv) → i ≠ .overflow →
        t.frame = s.frame ∧ t.rxState = s.rxState ∧ t.syncN = s.syncN ∧ t.pendingHalf = s.pendingHalf
          ∧ t.lastBit = s.lastBit ∧ t.run = s.run)

/-- spec/20_memory.md R234: operations of one side never read a field of the other. Two states that agree on a side give
states that agree on it. -/
def Obligations.SidesDoNotReadEachOther : Prop :=
  (∀ (i : Instr) (s s' t : State), txSide i = true → SameTransmitterRegs s s' → s'.txMem = s.txMem →
      s'.draws = s.draws → s'.params = s.params → exec i s = .next t →
      ∃ t', exec i s' = .next t' ∧ SameTransmitterRegs t t' ∧ t'.txMem = t.txMem)
  ∧ (∀ (i : Instr) (s s' t : State), rxSide i = true → SameReceiverRegs s s' → s'.frame = s.frame →
      s'.draws = s.draws → s'.params = s.params → exec i s = .next t →
      ∃ t', exec i s' = .next t' ∧ SameReceiverRegs t t' ∧ t'.frame = t.frame
        ∧ (t.history.head?.map fun e => (e.outcome, e.result))
          = (t'.history.head?.map fun e => (e.outcome, e.result)))

/-- spec/20_memory.md R234, spec/60_exceptions.md R722: TICK commutes with EDGE and with OVERFLOW. -/
def Obligations.TickCommutesWithSampler : Prop :=
  ∀ (i : Instr) (s t u : State), ((∃ dir iv, i = .edge dir iv) ∨ i = .overflow) →
    exec .tick s = .next t → exec i s = .next u →
    ∃ t' u', exec i t = .next t' ∧ exec .tick u = .next u' ∧ SameBlock t' u'

/-- spec/00_scope.md R8, spec/20_memory.md R234: every order in which the transmitter's operations `as` and the
receiver's operations `bs` can be applied leaves the same block state: the transmitter's of `as` alone, the receiver's of
`bs` alone. -/
def Obligations.EveryInterleavingAgrees : Prop :=
  ∀ (as bs cs : List Instr) (s u v : State),
    (∀ i ∈ as, txSide i = true) → (∀ i ∈ bs, rxSide i = true) → Interleaves as bs cs →
    execAll as s = .next u → execAll bs s = .next v →
    ∃ t, execAll cs s = .next t ∧ SameTransmitterRegs u t ∧ t.txMem = u.txMem
      ∧ SameReceiverRegs v t ∧ t.frame = v.frame ∧ t.draws = s.draws ∧ t.params = s.params

/-- spec/10_state.md R131: `complete` is set only by terminator detection, and cleared only by a TAKE that finds it set
and by RESET; at reset it is 0. -/
def Obligations.OnlyTerminatorCompletes : Prop :=
  State.reset.complete = false
  ∧ ∀ (i : Instr) (s t : State), s.params.legal = true → exec i s = .next t →
    (s.complete = false → t.complete = true →
      ∃ dir iv, i = .edge dir iv ∧ s.rxState = .data ∧ s.run.toNat = 7
        ∧ Recovers s (classify s.params iv.toNat) true)
    ∧ (s.complete = true → t.complete = false → (∃ len, i = .take len) ∨ i = .reset)

/-- spec/10_state.md R140, R143: who writes `line_out`, and who sets and clears `tx_active`. -/
def Obligations.LineAndBusyWriters : Prop :=
  ∀ (i : Instr) (s t : State), exec i s = .next t →
    (t.lineOut ≠ s.lineOut → (i = .tick ∧ s.txActive = true) ∨ i = .reset)
    ∧ (s.txActive = false → t.txActive = true → ∃ len, i = .txStart len)
    ∧ (s.txActive = true → t.txActive = false → i = .tick ∨ i = .reset)

/-- spec/20_memory.md R233: while a frame awaits TAKE the decoder writes neither the store, the cursor nor `complete`;
while none does, TAKE reads nothing. -/
def Obligations.CompleteFrameIsLeftAlone : Prop :=
  ∀ s : State, LinkInv s →
    (s.complete = true → ∀ (i : Instr) (t : State), ((∃ dir iv, i = .edge dir iv) ∨ i = .overflow) →
      exec i s = .next t → t.frame = s.frame ∧ t.wrBits = s.wrBits ∧ t.complete = true)
    ∧ (s.complete = false → ∀ (len : BitVec 16) (f : Memory Bool),
      exec (.take len) { s with frame := f }
        = .next (State.record (.ok []) (some ⟨0#16, []⟩) { s with frame := f }))

/-- spec/41_receive.md R548: from every state that satisfies the invariants one OVERFLOW brings the decoder to IDLE and
one TAKE clears `complete`. -/
def Obligations.DecoderIsNeverStuck : Prop :=
  ∀ s : State, LinkInv s →
    (∃ t, exec .overflow s = .next t ∧ t.rxState = .idle)
    ∧ ∀ len, ∃ t, exec (.take len) s = .next t ∧ t.complete = false

/-! ### Invariants -/

/-- spec/10_state.md R148, R150: the invariants hold at reset. -/
def Obligations.InvariantsHoldAtReset : Prop := LinkInv State.reset

/-- spec/10_state.md R150: every step keeps the invariants, from every state that meets them. -/
def Obligations.StepKeepsInvariants : Prop := ∀ s t : State, LinkInv s → step s = .next t → LinkInv t

/-- spec/70_reset_and_hazards.md R851, spec/60_exceptions.md R700: "The block never halts": in a state that meets the
invariants a step neither faults nor is refused. -/
def Obligations.InvariantStatesNeverStop : Prop := ∀ s : State, LinkInv s → ∃ t, step s = .next t

/-- spec/10_state.md R150: its eight items, in every state that any number of steps reaches from reset with any words
presented and any legal parameters. Item 1 is the type of `rxState`. -/
def Obligations.ReachableStatesSatisfyTheInvariants : Prop :=
  ∀ (p : Params) (ws : List Word) (k : Nat) (t : State), p.legal = true →
    Host.Core.run Sys2Proof.core k { State.reset with params := p, port := ws } = .next t →
    (t.rxState = .idle ∨ t.rxState = .sync ∨ t.rxState = .data)
    ∧ (t.rxState = .sync → 1 ≤ t.syncN.toNat ∧ t.syncN.toNat ≤ 7)
    ∧ t.run.toNat ≤ 7
    ∧ t.wrBits.toNat ≤ 8 * t.params.bufBytes
    ∧ (t.rxState = .data → t.run.toNat ≤ t.wrBits.toNat
        ∧ ∀ i, t.wrBits.toNat - t.run.toNat ≤ i → i < t.wrBits.toNat → frameBit t i = true)
    ∧ (t.complete = true → t.rxState ≠ .data)
    ∧ (t.txActive = false → ∃ u, exec .tick t = .next u ∧ u.lineOut = t.lineOut)
    ∧ (t.txActive = true → t.txLen.toNat ≤ t.params.txBufBytes
        ∧ t.txH.toNat < (txLevels ((List.range t.txLen.toNat).map (txByte t))).length)

/-! ### Whole frames -/

/-- spec/41_receive.md R520, R521: a rising edge and then 7 long intervals, of any direction, lock the decoder, or return
it to IDLE while a frame awaits TAKE. Fewer leave it in SYNC, where an interval that is not long returns it to IDLE. -/
def Obligations.LockNeedsSevenLongIntervals : Prop :=
  ∀ (s : State) (iv : BitVec 16) (es : List (Bool × BitVec 16)),
    s.rxState = .idle → (∀ e ∈ es, classify s.params e.2.toNat = .long) →
    (es.length = 7 → ∃ t, execAll (.edge true iv :: es.map fun e => .edge e.1 e.2) s = .next t
      ∧ (s.complete = false → t.rxState = .data ∧ t.wrBits = 0#16 ∧ t.run = 0#3 ∧ t.lastBit = false
          ∧ t.pendingHalf = false)
      ∧ (s.complete = true → t.rxState = .idle ∧ t.wrBits = s.wrBits ∧ t.run = s.run ∧ t.complete = true)
      ∧ t.frame = s.frame)
    ∧ (es.length < 7 → ∃ t, execAll (.edge true iv :: es.map fun e => .edge e.1 e.2) s = .next t
      ∧ t.rxState = .sync ∧ t.syncN.toNat = es.length + 1 ∧ t.frame = s.frame
      ∧ ∀ (dir : Bool) (iv' : BitVec 16), classify s.params iv'.toNat ≠ .long →
          ∃ u, exec (.edge dir iv') t = .next u ∧ u.rxState = .idle)

/-- spec/41_receive.md R546 cases 2 and 4: a payload that fits and whose trailing 1s are a multiple of 7 is delivered. -/
def Obligations.FrameIsDelivered : Prop :=
  ∀ (s : State) (l0 : Bool) (p : List Byte),
    s.params.legal = true → s.params.timed = true → s.rxState = .idle → s.complete = false →
    p.length + 1 ≤ s.params.bufBytes → trailingOnes (payloadBits p) % 7 = 0 →
    ∃ t, execAll (idealEdges s.params l0 (txLevels p)) s = .next t
      ∧ t.wrBits.toNat = 8 * p.length ∧ t.complete = true ∧ t.rxState = .idle
      ∧ ∀ (j : Nat) (h : j < p.length), frameByte t j = p[j]

/-- spec/41_receive.md R546 case 3: other trailing 1s complete the frame early, and the last byte is lost. -/
def Obligations.FrameIsTruncated : Prop :=
  ∀ (s : State) (l0 : Bool) (p : List Byte),
    s.params.legal = true → s.params.timed = true → s.rxState = .idle → s.complete = false →
    p.length + 1 ≤ s.params.bufBytes → 0 < trailingOnes (payloadBits p) % 7 →
    ∃ t, execAll (idealEdges s.params l0 (txLevels p)) s = .next t
      ∧ t.wrBits.toNat = 8 * p.length - trailingOnes (payloadBits p) % 7 ∧ t.complete = true
      ∧ t.rxState = .sync ∧ t.syncN = 1#3
      ∧ ∀ (j : Nat) (h : j + 1 < p.length), frameByte t j = p[j]

/-- spec/41_receive.md R546 case 1: a payload as large as the store or larger is dropped, with cause Capacity. `complete`
is 0 at the end when the payload is exactly as large; a larger one's remaining bits can cause a false lock (R548). -/
def Obligations.FrameAtCapacityIsDropped : Prop :=
  ∀ (s : State) (l0 : Bool) (p : List Byte),
    s.params.legal = true → s.params.timed = true → s.rxState = .idle → s.complete = false →
    s.params.bufBytes ≤ p.length →
    ∃ t es, execAll (idealEdges s.params l0 (txLevels p)) s = .next t
      ∧ t.history = es ++ s.history ∧ (∃ e ∈ es, e.outcome = .desync .capacity [])
      ∧ (p.length = s.params.bufBytes → t.complete = false)

/-- spec/41_receive.md R547: the round trip of a payload through the ideal channel and TAKE. -/
def Obligations.PayloadRoundTrip : Prop :=
  ∀ (s : State) (l0 : Bool) (p : List Byte),
    s.params.legal = true → s.params.timed = true → s.rxState = .idle → s.complete = false →
    1 ≤ p.length → p.length ≤ s.params.bufBytes - 1 → trailingOnes (payloadBits p) % 7 = 0 →
    ∃ t e, execAll (idealEdges s.params l0 (txLevels p) ++ [.take 65535#16]) s = .next t
      ∧ t.history.head? = some e ∧ e.result = some ⟨BitVec.ofNat 16 p.length, p⟩ ∧ t.complete = false
end

