-- ==== Sys2Proof/Laws/Decode.lean ====
section
/-! SUPPORT. The fields and the formats of an operation word as numbers, on which decoding and encoding are arithmetic. -/

namespace Sys2Proof.Laws

open Sys2Proof

theorem opField_toNat (w : Word) : (opField w).toNat = w.toNat / 2 ^ 28 := by
  have h := w.isLt
  simp only [opField, BitVec.extractLsb'_toNat, Nat.shiftRight_eq_div_pow]
  omega

theorem lowField_toNat (w : Word) : (lowField w).toNat = w.toNat % 2 ^ 16 := by
  simp only [lowField, BitVec.extractLsb'_toNat, Nat.shiftRight_eq_div_pow]
  omega

theorem idxField_toNat (w : Word) : (idxField w).toNat = w.toNat / 2 ^ 8 % 2 ^ 16 := by
  simp only [idxField, BitVec.extractLsb'_toNat, Nat.shiftRight_eq_div_pow]

theorem dataField_toNat (w : Word) : (dataField w).toNat = w.toNat % 2 ^ 8 := by
  simp only [dataField, BitVec.extractLsb'_toNat, Nat.shiftRight_eq_div_pow]
  omega

theorem dirField_eq (w : Word) : dirField w = decide (w.toNat / 2 ^ 16 % 2 = 1) := by
  simp only [dirField, BitVec.getLsbD, Nat.testBit_eq_decide_div_mod_eq]

theorem reservedN_toNat (w : Word) : (reservedN w).toNat = w.toNat % 2 ^ 28 := by
  simp only [reservedN, BitVec.extractLsb'_toNat, Nat.shiftRight_eq_div_pow]
  omega

theorem reservedE_toNat (w : Word) : (reservedE w).toNat = w.toNat / 2 ^ 17 % 2 ^ 11 := by
  simp only [reservedE, BitVec.extractLsb'_toNat, Nat.shiftRight_eq_div_pow]

theorem reservedW_toNat (w : Word) : (reservedW w).toNat = w.toNat / 2 ^ 24 % 2 ^ 4 := by
  simp only [reservedW, BitVec.extractLsb'_toNat, Nat.shiftRight_eq_div_pow]

theorem reservedL_toNat (w : Word) : (reservedL w).toNat = w.toNat / 2 ^ 16 % 2 ^ 12 := by
  simp only [reservedL, BitVec.extractLsb'_toNat, Nat.shiftRight_eq_div_pow]

/-- Appending puts the left word above the right one. -/
theorem append_toNat {m n : Nat} (x : BitVec m) (y : BitVec n) : (x ++ y).toNat = x.toNat * 2 ^ n + y.toNat := by
  rw [BitVec.toNat_append, ← Nat.shiftLeft_add_eq_or_of_lt y.isLt, Nat.shiftLeft_eq]

theorem formatN_toNat (op : BitVec 4) : (formatN op).toNat = op.toNat * 2 ^ 28 := by
  simp only [formatN, append_toNat, BitVec.toNat_ofNat]
  omega

theorem formatE_toNat (op : BitVec 4) (dir : Bool) (iv : BitVec 16) :
    (formatE op dir iv).toNat = op.toNat * 2 ^ 28 + dir.toNat * 2 ^ 16 + iv.toNat := by
  simp only [formatE, append_toNat, BitVec.toNat_ofNat, BitVec.toNat_ofBool]
  omega

theorem formatW_toNat (op : BitVec 4) (idx : BitVec 16) (data : Byte) :
    (formatW op idx data).toNat = op.toNat * 2 ^ 28 + idx.toNat * 2 ^ 8 + data.toNat := by
  simp only [formatW, append_toNat, BitVec.toNat_ofNat]
  omega

theorem formatL_toNat (op : BitVec 4) (len : BitVec 16) :
    (formatL op len).toNat = op.toNat * 2 ^ 28 + len.toNat := by
  simp only [formatL, append_toNat, BitVec.toNat_ofNat]
  omega

/-- What decoding a word to an operation says of the word (spec/30_encoding.md R351). -/
theorem ifReservedZero_op {n : Nat} {bits : BitVec n} {i j : Instr} (h : ifReservedZero bits i = .op j) :
    bits.toNat = 0 ∧ i = j := by
  unfold ifReservedZero at h
  split at h
  · subst_vars; cases h; simp
  · cases h

theorem ifReservedZero_zero {n : Nat} {bits : BitVec n} (i : Instr) (h : bits.toNat = 0) :
    ifReservedZero bits i = .op i := by
  have : bits = 0#n := BitVec.eq_of_toNat_eq (by simpa using h)
  simp [ifReservedZero, this]

/-- A row accepts a word exactly when the masked bits are the pattern's. -/
theorem accepts_iff (r : OpRow) (w : Word) : r.accepts w = true ↔ w &&& r.mask = r.pattern := by
  simp [OpRow.accepts]

end Sys2Proof.Laws
end

