-- ==== Sys2Proof/Laws/Memory.lean ====
section
/-! SUPPORT. The laws of the storage arrays: reading after writing, and the canonical form kept by every write. -/

namespace Sys2Proof.Laws

open Sys2Proof.Machine

variable {α : Type}

@[simp] theorem read_nil (a : Nat) : Memory.read ([] : Memory α) a = none := rfl

theorem read_write_same (a : Nat) (v : α) (m : Memory α) : Memory.read (Memory.write a v m) a = some v := by
  induction m with
  | nil => simp [Memory.write, Memory.read]
  | cons c rest ih =>
    obtain ⟨k, x⟩ := c
    simp only [Memory.write]
    split
    · simp [Memory.read]
    · split
      · simp [Memory.read]
      · simp only [Memory.read, ih]
        simp_all [eq_comm]

theorem read_write_other {a b : Nat} (h : b ≠ a) (v : α) (m : Memory α) :
    Memory.read (Memory.write a v m) b = Memory.read m b := by
  induction m with
  | nil => simp [Memory.write, Memory.read, h.symm]
  | cons c rest ih =>
    obtain ⟨k, x⟩ := c
    simp only [Memory.write]
    split
    · simp [Memory.read, h.symm]
    · split
      · subst_vars
        simp [Memory.read, h.symm]
      · simp only [Memory.read, ih]

/-- Reading any cell after a write. -/
theorem read_write (a b : Nat) (v : α) (m : Memory α) :
    Memory.read (Memory.write a v m) b = if b = a then some v else Memory.read m b := by
  split
  · subst_vars; exact read_write_same _ v m
  · exact read_write_other ‹_› v m

/-- Writing the same value twice is writing it once (spec/20_memory.md R222). -/
theorem write_write_same (a : Nat) (v : α) (m : Memory α) :
    Memory.write a v (Memory.write a v m) = Memory.write a v m := by
  induction m with
  | nil => simp [Memory.write]
  | cons c rest ih =>
    obtain ⟨k, x⟩ := c
    simp only [Memory.write]
    split
    · simp [Memory.write]
    · split
      · simp [Memory.write]
      · simp_all [Memory.write]

/-- A canonical list's tail is canonical. -/
theorem wf_tail {c : Nat × α} {m : Memory α} (h : Memory.wf (c :: m) = true) : Memory.wf m = true := by
  cases m with
  | nil => rfl
  | cons d rest => simp_all [Memory.wf]

/-- A cell in front of a canonical list: canonical when its index is below the list's first. -/
theorem wf_cons_iff {k : Nat} {x : α} {m : Memory α} :
    Memory.wf ((k, x) :: m) = true ↔ (∀ c, m.head? = some c → k < c.1) ∧ Memory.wf m = true := by
  cases m with
  | nil => simp [Memory.wf]
  | cons d rest => simp [Memory.wf]

/-- The first index after a write. -/
theorem head_write {a : Nat} {v : α} {m : Memory α} {c : Nat × α} (h : (Memory.write a v m).head? = some c) :
    c.1 = a ∨ m.head? = some c := by
  cases m with
  | nil => simp_all [Memory.write, eq_comm]
  | cons d rest =>
    obtain ⟨k, x⟩ := d
    simp only [Memory.write] at h
    split at h
    · simp at h; simp [← h]
    · split at h
      · simp at h; simp [← h]
      · simp at h; simp [h]

/-- A write keeps the canonical form. -/
theorem write_wf (a : Nat) (v : α) {m : Memory α} (h : Memory.wf m = true) : Memory.wf (Memory.write a v m) = true := by
  induction m with
  | nil => rfl
  | cons c rest ih =>
    obtain ⟨k, x⟩ := c
    simp only [Memory.write]
    split
    · exact wf_cons_iff.2 ⟨by simp; omega, h⟩
    · split
      · subst_vars
        exact wf_cons_iff.2 (wf_cons_iff.1 h)
      · refine wf_cons_iff.2 ⟨fun c hc => ?_, ih (wf_tail h)⟩
        obtain h1 | h1 := head_write hc
        · omega
        · exact (wf_cons_iff.1 h).1 c h1

/-- A write inside an array keeps every index inside it. -/
theorem write_below {a n : Nat} (ha : a < n) (v : α) {m : Memory α} (h : Memory.below n m = true) :
    Memory.below n (Memory.write a v m) = true := by
  induction m with
  | nil => simp [Memory.write, Memory.below, ha]
  | cons c rest ih =>
    obtain ⟨k, x⟩ := c
    simp only [Memory.below, List.all_cons, Bool.and_eq_true, decide_eq_true_eq] at h ih ⊢
    simp only [Memory.write]
    split
    · simp [ha, h]
    · split
      · simp [ha, h]
      · simp [h, ih h.2]

@[simp] theorem wf_nil : Memory.wf ([] : Memory α) = true := rfl

@[simp] theorem below_nil (n : Nat) : Memory.below n ([] : Memory α) = true := rfl

/-- The memories of the state after reset are canonical. -/
theorem reset_memories_wf : Memory.wf State.reset.frame = true ∧ Memory.wf State.reset.txMem = true := ⟨rfl, rfl⟩

end Sys2Proof.Laws
end

