-- ==== Sys2Proof/Laws/State.lean ====
section
/-! SUPPORT. What each named update of Machine/Ops.lean leaves in each field: one lemma per field per update. -/

namespace Sys2Proof.Laws

open Sys2Proof.Machine

variable (s : State)

/-! ### State.toIdle -/

@[simp] theorem toIdle_rxState : s.toIdle.rxState = .idle := rfl
@[simp] theorem toIdle_syncN : s.toIdle.syncN = s.syncN := rfl
@[simp] theorem toIdle_pendingHalf : s.toIdle.pendingHalf = s.pendingHalf := rfl
@[simp] theorem toIdle_lastBit : s.toIdle.lastBit = s.lastBit := rfl
@[simp] theorem toIdle_run : s.toIdle.run = s.run := rfl
@[simp] theorem toIdle_wrBits : s.toIdle.wrBits = s.wrBits := rfl
@[simp] theorem toIdle_complete : s.toIdle.complete = s.complete := rfl
@[simp] theorem toIdle_frame : s.toIdle.frame = s.frame := rfl
@[simp] theorem toIdle_txActive : s.toIdle.txActive = s.txActive := rfl
@[simp] theorem toIdle_txLen : s.toIdle.txLen = s.txLen := rfl
@[simp] theorem toIdle_txH : s.toIdle.txH = s.txH := rfl
@[simp] theorem toIdle_lineOut : s.toIdle.lineOut = s.lineOut := rfl
@[simp] theorem toIdle_pulseReady : s.toIdle.pulseReady = s.pulseReady := rfl
@[simp] theorem toIdle_txMem : s.toIdle.txMem = s.txMem := rfl
@[simp] theorem toIdle_params : s.toIdle.params = s.params := rfl
@[simp] theorem toIdle_draws : s.toIdle.draws = s.draws := rfl
@[simp] theorem toIdle_port : s.toIdle.port = s.port := rfl
@[simp] theorem toIdle_history : s.toIdle.history = s.history := rfl

/-! ### State.startSync -/

@[simp] theorem startSync_rxState : s.startSync.rxState = .sync := rfl
@[simp] theorem startSync_syncN : s.startSync.syncN = 1#3 := rfl
@[simp] theorem startSync_pendingHalf : s.startSync.pendingHalf = s.pendingHalf := rfl
@[simp] theorem startSync_lastBit : s.startSync.lastBit = s.lastBit := rfl
@[simp] theorem startSync_run : s.startSync.run = s.run := rfl
@[simp] theorem startSync_wrBits : s.startSync.wrBits = s.wrBits := rfl
@[simp] theorem startSync_complete : s.startSync.complete = s.complete := rfl
@[simp] theorem startSync_frame : s.startSync.frame = s.frame := rfl
@[simp] theorem startSync_txActive : s.startSync.txActive = s.txActive := rfl
@[simp] theorem startSync_txLen : s.startSync.txLen = s.txLen := rfl
@[simp] theorem startSync_txH : s.startSync.txH = s.txH := rfl
@[simp] theorem startSync_lineOut : s.startSync.lineOut = s.lineOut := rfl
@[simp] theorem startSync_pulseReady : s.startSync.pulseReady = s.pulseReady := rfl
@[simp] theorem startSync_txMem : s.startSync.txMem = s.txMem := rfl
@[simp] theorem startSync_params : s.startSync.params = s.params := rfl
@[simp] theorem startSync_draws : s.startSync.draws = s.draws := rfl
@[simp] theorem startSync_port : s.startSync.port = s.port := rfl
@[simp] theorem startSync_history : s.startSync.history = s.history := rfl

/-! ### State.countSync -/

@[simp] theorem countSync_rxState : s.countSync.rxState = s.rxState := rfl
@[simp] theorem countSync_syncN : s.countSync.syncN = s.syncN + 1#3 := rfl
@[simp] theorem countSync_pendingHalf : s.countSync.pendingHalf = s.pendingHalf := rfl
@[simp] theorem countSync_lastBit : s.countSync.lastBit = s.lastBit := rfl
@[simp] theorem countSync_run : s.countSync.run = s.run := rfl
@[simp] theorem countSync_wrBits : s.countSync.wrBits = s.wrBits := rfl
@[simp] theorem countSync_complete : s.countSync.complete = s.complete := rfl
@[simp] theorem countSync_frame : s.countSync.frame = s.frame := rfl
@[simp] theorem countSync_txActive : s.countSync.txActive = s.txActive := rfl
@[simp] theorem countSync_txLen : s.countSync.txLen = s.txLen := rfl
@[simp] theorem countSync_txH : s.countSync.txH = s.txH := rfl
@[simp] theorem countSync_lineOut : s.countSync.lineOut = s.lineOut := rfl
@[simp] theorem countSync_pulseReady : s.countSync.pulseReady = s.pulseReady := rfl
@[simp] theorem countSync_txMem : s.countSync.txMem = s.txMem := rfl
@[simp] theorem countSync_params : s.countSync.params = s.params := rfl
@[simp] theorem countSync_draws : s.countSync.draws = s.draws := rfl
@[simp] theorem countSync_port : s.countSync.port = s.port := rfl
@[simp] theorem countSync_history : s.countSync.history = s.history := rfl

/-! ### State.acquireLock -/

@[simp] theorem acquireLock_rxState : s.acquireLock.rxState = .data := rfl
@[simp] theorem acquireLock_syncN : s.acquireLock.syncN = s.syncN := rfl
@[simp] theorem acquireLock_pendingHalf : s.acquireLock.pendingHalf = false := rfl
@[simp] theorem acquireLock_lastBit : s.acquireLock.lastBit = false := rfl
@[simp] theorem acquireLock_run : s.acquireLock.run = 0#3 := rfl
@[simp] theorem acquireLock_wrBits : s.acquireLock.wrBits = 0#16 := rfl
@[simp] theorem acquireLock_complete : s.acquireLock.complete = s.complete := rfl
@[simp] theorem acquireLock_frame : s.acquireLock.frame = s.frame := rfl
@[simp] theorem acquireLock_txActive : s.acquireLock.txActive = s.txActive := rfl
@[simp] theorem acquireLock_txLen : s.acquireLock.txLen = s.txLen := rfl
@[simp] theorem acquireLock_txH : s.acquireLock.txH = s.txH := rfl
@[simp] theorem acquireLock_lineOut : s.acquireLock.lineOut = s.lineOut := rfl
@[simp] theorem acquireLock_pulseReady : s.acquireLock.pulseReady = s.pulseReady := rfl
@[simp] theorem acquireLock_txMem : s.acquireLock.txMem = s.txMem := rfl
@[simp] theorem acquireLock_params : s.acquireLock.params = s.params := rfl
@[simp] theorem acquireLock_draws : s.acquireLock.draws = s.draws := rfl
@[simp] theorem acquireLock_port : s.acquireLock.port = s.port := rfl
@[simp] theorem acquireLock_history : s.acquireLock.history = s.history := rfl

/-! ### State.setPending -/

@[simp] theorem setPending_rxState (v : Bool) : (s.setPending v).rxState = s.rxState := rfl
@[simp] theorem setPending_syncN (v : Bool) : (s.setPending v).syncN = s.syncN := rfl
@[simp] theorem setPending_pendingHalf (v : Bool) : (s.setPending v).pendingHalf = v := rfl
@[simp] theorem setPending_lastBit (v : Bool) : (s.setPending v).lastBit = s.lastBit := rfl
@[simp] theorem setPending_run (v : Bool) : (s.setPending v).run = s.run := rfl
@[simp] theorem setPending_wrBits (v : Bool) : (s.setPending v).wrBits = s.wrBits := rfl
@[simp] theorem setPending_complete (v : Bool) : (s.setPending v).complete = s.complete := rfl
@[simp] theorem setPending_frame (v : Bool) : (s.setPending v).frame = s.frame := rfl
@[simp] theorem setPending_txActive (v : Bool) : (s.setPending v).txActive = s.txActive := rfl
@[simp] theorem setPending_txLen (v : Bool) : (s.setPending v).txLen = s.txLen := rfl
@[simp] theorem setPending_txH (v : Bool) : (s.setPending v).txH = s.txH := rfl
@[simp] theorem setPending_lineOut (v : Bool) : (s.setPending v).lineOut = s.lineOut := rfl
@[simp] theorem setPending_pulseReady (v : Bool) : (s.setPending v).pulseReady = s.pulseReady := rfl
@[simp] theorem setPending_txMem (v : Bool) : (s.setPending v).txMem = s.txMem := rfl
@[simp] theorem setPending_params (v : Bool) : (s.setPending v).params = s.params := rfl
@[simp] theorem setPending_draws (v : Bool) : (s.setPending v).draws = s.draws := rfl
@[simp] theorem setPending_port (v : Bool) : (s.setPending v).port = s.port := rfl
@[simp] theorem setPending_history (v : Bool) : (s.setPending v).history = s.history := rfl

/-! ### State.setLast -/

@[simp] theorem setLast_rxState (v : Bool) : (s.setLast v).rxState = s.rxState := rfl
@[simp] theorem setLast_syncN (v : Bool) : (s.setLast v).syncN = s.syncN := rfl
@[simp] theorem setLast_pendingHalf (v : Bool) : (s.setLast v).pendingHalf = s.pendingHalf := rfl
@[simp] theorem setLast_lastBit (v : Bool) : (s.setLast v).lastBit = v := rfl
@[simp] theorem setLast_run (v : Bool) : (s.setLast v).run = s.run := rfl
@[simp] theorem setLast_wrBits (v : Bool) : (s.setLast v).wrBits = s.wrBits := rfl
@[simp] theorem setLast_complete (v : Bool) : (s.setLast v).complete = s.complete := rfl
@[simp] theorem setLast_frame (v : Bool) : (s.setLast v).frame = s.frame := rfl
@[simp] theorem setLast_txActive (v : Bool) : (s.setLast v).txActive = s.txActive := rfl
@[simp] theorem setLast_txLen (v : Bool) : (s.setLast v).txLen = s.txLen := rfl
@[simp] theorem setLast_txH (v : Bool) : (s.setLast v).txH = s.txH := rfl
@[simp] theorem setLast_lineOut (v : Bool) : (s.setLast v).lineOut = s.lineOut := rfl
@[simp] theorem setLast_pulseReady (v : Bool) : (s.setLast v).pulseReady = s.pulseReady := rfl
@[simp] theorem setLast_txMem (v : Bool) : (s.setLast v).txMem = s.txMem := rfl
@[simp] theorem setLast_params (v : Bool) : (s.setLast v).params = s.params := rfl
@[simp] theorem setLast_draws (v : Bool) : (s.setLast v).draws = s.draws := rfl
@[simp] theorem setLast_port (v : Bool) : (s.setLast v).port = s.port := rfl
@[simp] theorem setLast_history (v : Bool) : (s.setLast v).history = s.history := rfl

/-! ### State.dropStuffed -/

@[simp] theorem dropStuffed_rxState : s.dropStuffed.rxState = s.rxState := rfl
@[simp] theorem dropStuffed_syncN : s.dropStuffed.syncN = s.syncN := rfl
@[simp] theorem dropStuffed_pendingHalf : s.dropStuffed.pendingHalf = s.pendingHalf := rfl
@[simp] theorem dropStuffed_lastBit : s.dropStuffed.lastBit = s.lastBit := rfl
@[simp] theorem dropStuffed_run : s.dropStuffed.run = 0#3 := rfl
@[simp] theorem dropStuffed_wrBits : s.dropStuffed.wrBits = s.wrBits := rfl
@[simp] theorem dropStuffed_complete : s.dropStuffed.complete = s.complete := rfl
@[simp] theorem dropStuffed_frame : s.dropStuffed.frame = s.frame := rfl
@[simp] theorem dropStuffed_txActive : s.dropStuffed.txActive = s.txActive := rfl
@[simp] theorem dropStuffed_txLen : s.dropStuffed.txLen = s.txLen := rfl
@[simp] theorem dropStuffed_txH : s.dropStuffed.txH = s.txH := rfl
@[simp] theorem dropStuffed_lineOut : s.dropStuffed.lineOut = s.lineOut := rfl
@[simp] theorem dropStuffed_pulseReady : s.dropStuffed.pulseReady = s.pulseReady := rfl
@[simp] theorem dropStuffed_txMem : s.dropStuffed.txMem = s.txMem := rfl
@[simp] theorem dropStuffed_params : s.dropStuffed.params = s.params := rfl
@[simp] theorem dropStuffed_draws : s.dropStuffed.draws = s.draws := rfl
@[simp] theorem dropStuffed_port : s.dropStuffed.port = s.port := rfl
@[simp] theorem dropStuffed_history : s.dropStuffed.history = s.history := rfl

/-! ### State.finishFrame -/

@[simp] theorem finishFrame_rxState : s.finishFrame.rxState = .idle := rfl
@[simp] theorem finishFrame_syncN : s.finishFrame.syncN = s.syncN := rfl
@[simp] theorem finishFrame_pendingHalf : s.finishFrame.pendingHalf = s.pendingHalf := rfl
@[simp] theorem finishFrame_lastBit : s.finishFrame.lastBit = s.lastBit := rfl
@[simp] theorem finishFrame_run : s.finishFrame.run = s.run := rfl
@[simp] theorem finishFrame_wrBits : s.finishFrame.wrBits = s.wrBits - 7#16 := rfl
@[simp] theorem finishFrame_complete : s.finishFrame.complete = true := rfl
@[simp] theorem finishFrame_frame : s.finishFrame.frame = s.frame := rfl
@[simp] theorem finishFrame_txActive : s.finishFrame.txActive = s.txActive := rfl
@[simp] theorem finishFrame_txLen : s.finishFrame.txLen = s.txLen := rfl
@[simp] theorem finishFrame_txH : s.finishFrame.txH = s.txH := rfl
@[simp] theorem finishFrame_lineOut : s.finishFrame.lineOut = s.lineOut := rfl
@[simp] theorem finishFrame_pulseReady : s.finishFrame.pulseReady = s.pulseReady := rfl
@[simp] theorem finishFrame_txMem : s.finishFrame.txMem = s.txMem := rfl
@[simp] theorem finishFrame_params : s.finishFrame.params = s.params := rfl
@[simp] theorem finishFrame_draws : s.finishFrame.draws = s.draws := rfl
@[simp] theorem finishFrame_port : s.finishFrame.port = s.port := rfl
@[simp] theorem finishFrame_history : s.finishFrame.history = s.history := rfl

/-! ### State.storeBit -/

@[simp] theorem storeBit_rxState (v : Bool) : (s.storeBit v).rxState = s.rxState := rfl
@[simp] theorem storeBit_syncN (v : Bool) : (s.storeBit v).syncN = s.syncN := rfl
@[simp] theorem storeBit_pendingHalf (v : Bool) : (s.storeBit v).pendingHalf = s.pendingHalf := rfl
@[simp] theorem storeBit_lastBit (v : Bool) : (s.storeBit v).lastBit = s.lastBit := rfl
@[simp] theorem storeBit_run (v : Bool) : (s.storeBit v).run = runAfter s v := rfl
@[simp] theorem storeBit_wrBits (v : Bool) : (s.storeBit v).wrBits = s.wrBits + 1#16 := rfl
@[simp] theorem storeBit_complete (v : Bool) : (s.storeBit v).complete = s.complete := rfl
@[simp] theorem storeBit_frame (v : Bool) : (s.storeBit v).frame = Memory.write s.wrBits.toNat v s.frame := rfl
@[simp] theorem storeBit_txActive (v : Bool) : (s.storeBit v).txActive = s.txActive := rfl
@[simp] theorem storeBit_txLen (v : Bool) : (s.storeBit v).txLen = s.txLen := rfl
@[simp] theorem storeBit_txH (v : Bool) : (s.storeBit v).txH = s.txH := rfl
@[simp] theorem storeBit_lineOut (v : Bool) : (s.storeBit v).lineOut = s.lineOut := rfl
@[simp] theorem storeBit_pulseReady (v : Bool) : (s.storeBit v).pulseReady = s.pulseReady := rfl
@[simp] theorem storeBit_txMem (v : Bool) : (s.storeBit v).txMem = s.txMem := rfl
@[simp] theorem storeBit_params (v : Bool) : (s.storeBit v).params = s.params := rfl
@[simp] theorem storeBit_draws (v : Bool) : (s.storeBit v).draws = s.draws := rfl
@[simp] theorem storeBit_port (v : Bool) : (s.storeBit v).port = s.port := rfl
@[simp] theorem storeBit_history (v : Bool) : (s.storeBit v).history = s.history := rfl

/-! ### State.releaseFrame -/

@[simp] theorem releaseFrame_rxState : s.releaseFrame.rxState = s.rxState := rfl
@[simp] theorem releaseFrame_syncN : s.releaseFrame.syncN = s.syncN := rfl
@[simp] theorem releaseFrame_pendingHalf : s.releaseFrame.pendingHalf = s.pendingHalf := rfl
@[simp] theorem releaseFrame_lastBit : s.releaseFrame.lastBit = s.lastBit := rfl
@[simp] theorem releaseFrame_run : s.releaseFrame.run = s.run := rfl
@[simp] theorem releaseFrame_wrBits : s.releaseFrame.wrBits = 0#16 := rfl
@[simp] theorem releaseFrame_complete : s.releaseFrame.complete = false := rfl
@[simp] theorem releaseFrame_frame : s.releaseFrame.frame = s.frame := rfl
@[simp] theorem releaseFrame_txActive : s.releaseFrame.txActive = s.txActive := rfl
@[simp] theorem releaseFrame_txLen : s.releaseFrame.txLen = s.txLen := rfl
@[simp] theorem releaseFrame_txH : s.releaseFrame.txH = s.txH := rfl
@[simp] theorem releaseFrame_lineOut : s.releaseFrame.lineOut = s.lineOut := rfl
@[simp] theorem releaseFrame_pulseReady : s.releaseFrame.pulseReady = s.pulseReady := rfl
@[simp] theorem releaseFrame_txMem : s.releaseFrame.txMem = s.txMem := rfl
@[simp] theorem releaseFrame_params : s.releaseFrame.params = s.params := rfl
@[simp] theorem releaseFrame_draws : s.releaseFrame.draws = s.draws := rfl
@[simp] theorem releaseFrame_port : s.releaseFrame.port = s.port := rfl
@[simp] theorem releaseFrame_history : s.releaseFrame.history = s.history := rfl

/-! ### State.setPulse -/

@[simp] theorem setPulse_rxState : s.setPulse.rxState = s.rxState := rfl
@[simp] theorem setPulse_syncN : s.setPulse.syncN = s.syncN := rfl
@[simp] theorem setPulse_pendingHalf : s.setPulse.pendingHalf = s.pendingHalf := rfl
@[simp] theorem setPulse_lastBit : s.setPulse.lastBit = s.lastBit := rfl
@[simp] theorem setPulse_run : s.setPulse.run = s.run := rfl
@[simp] theorem setPulse_wrBits : s.setPulse.wrBits = s.wrBits := rfl
@[simp] theorem setPulse_complete : s.setPulse.complete = s.complete := rfl
@[simp] theorem setPulse_frame : s.setPulse.frame = s.frame := rfl
@[simp] theorem setPulse_txActive : s.setPulse.txActive = s.txActive := rfl
@[simp] theorem setPulse_txLen : s.setPulse.txLen = s.txLen := rfl
@[simp] theorem setPulse_txH : s.setPulse.txH = s.txH := rfl
@[simp] theorem setPulse_lineOut : s.setPulse.lineOut = s.lineOut := rfl
@[simp] theorem setPulse_pulseReady : s.setPulse.pulseReady = true := rfl
@[simp] theorem setPulse_txMem : s.setPulse.txMem = s.txMem := rfl
@[simp] theorem setPulse_params : s.setPulse.params = s.params := rfl
@[simp] theorem setPulse_draws : s.setPulse.draws = s.draws := rfl
@[simp] theorem setPulse_port : s.setPulse.port = s.port := rfl
@[simp] theorem setPulse_history : s.setPulse.history = s.history := rfl

/-! ### State.driveLevel -/

@[simp] theorem driveLevel_rxState (l : Bool) : (s.driveLevel l).rxState = s.rxState := rfl
@[simp] theorem driveLevel_syncN (l : Bool) : (s.driveLevel l).syncN = s.syncN := rfl
@[simp] theorem driveLevel_pendingHalf (l : Bool) : (s.driveLevel l).pendingHalf = s.pendingHalf := rfl
@[simp] theorem driveLevel_lastBit (l : Bool) : (s.driveLevel l).lastBit = s.lastBit := rfl
@[simp] theorem driveLevel_run (l : Bool) : (s.driveLevel l).run = s.run := rfl
@[simp] theorem driveLevel_wrBits (l : Bool) : (s.driveLevel l).wrBits = s.wrBits := rfl
@[simp] theorem driveLevel_complete (l : Bool) : (s.driveLevel l).complete = s.complete := rfl
@[simp] theorem driveLevel_frame (l : Bool) : (s.driveLevel l).frame = s.frame := rfl
@[simp] theorem driveLevel_txActive (l : Bool) : (s.driveLevel l).txActive = s.txActive := rfl
@[simp] theorem driveLevel_txLen (l : Bool) : (s.driveLevel l).txLen = s.txLen := rfl
@[simp] theorem driveLevel_txH (l : Bool) : (s.driveLevel l).txH = s.txH + 1#21 := rfl
@[simp] theorem driveLevel_lineOut (l : Bool) : (s.driveLevel l).lineOut = l := rfl
@[simp] theorem driveLevel_pulseReady (l : Bool) : (s.driveLevel l).pulseReady = false := rfl
@[simp] theorem driveLevel_txMem (l : Bool) : (s.driveLevel l).txMem = s.txMem := rfl
@[simp] theorem driveLevel_params (l : Bool) : (s.driveLevel l).params = s.params := rfl
@[simp] theorem driveLevel_draws (l : Bool) : (s.driveLevel l).draws = s.draws := rfl
@[simp] theorem driveLevel_port (l : Bool) : (s.driveLevel l).port = s.port := rfl
@[simp] theorem driveLevel_history (l : Bool) : (s.driveLevel l).history = s.history := rfl

/-! ### State.endFrame -/

@[simp] theorem endFrame_rxState : s.endFrame.rxState = s.rxState := rfl
@[simp] theorem endFrame_syncN : s.endFrame.syncN = s.syncN := rfl
@[simp] theorem endFrame_pendingHalf : s.endFrame.pendingHalf = s.pendingHalf := rfl
@[simp] theorem endFrame_lastBit : s.endFrame.lastBit = s.lastBit := rfl
@[simp] theorem endFrame_run : s.endFrame.run = s.run := rfl
@[simp] theorem endFrame_wrBits : s.endFrame.wrBits = s.wrBits := rfl
@[simp] theorem endFrame_complete : s.endFrame.complete = s.complete := rfl
@[simp] theorem endFrame_frame : s.endFrame.frame = s.frame := rfl
@[simp] theorem endFrame_txActive : s.endFrame.txActive = false := rfl
@[simp] theorem endFrame_txLen : s.endFrame.txLen = s.txLen := rfl
@[simp] theorem endFrame_txH : s.endFrame.txH = s.txH := rfl
@[simp] theorem endFrame_lineOut : s.endFrame.lineOut = s.lineOut := rfl
@[simp] theorem endFrame_pulseReady : s.endFrame.pulseReady = s.pulseReady := rfl
@[simp] theorem endFrame_txMem : s.endFrame.txMem = s.txMem := rfl
@[simp] theorem endFrame_params : s.endFrame.params = s.params := rfl
@[simp] theorem endFrame_draws : s.endFrame.draws = s.draws := rfl
@[simp] theorem endFrame_port : s.endFrame.port = s.port := rfl
@[simp] theorem endFrame_history : s.endFrame.history = s.history := rfl

/-! ### State.writeTx -/

@[simp] theorem writeTx_rxState (j : Nat) (b : Byte) : (s.writeTx j b).rxState = s.rxState := rfl
@[simp] theorem writeTx_syncN (j : Nat) (b : Byte) : (s.writeTx j b).syncN = s.syncN := rfl
@[simp] theorem writeTx_pendingHalf (j : Nat) (b : Byte) : (s.writeTx j b).pendingHalf = s.pendingHalf := rfl
@[simp] theorem writeTx_lastBit (j : Nat) (b : Byte) : (s.writeTx j b).lastBit = s.lastBit := rfl
@[simp] theorem writeTx_run (j : Nat) (b : Byte) : (s.writeTx j b).run = s.run := rfl
@[simp] theorem writeTx_wrBits (j : Nat) (b : Byte) : (s.writeTx j b).wrBits = s.wrBits := rfl
@[simp] theorem writeTx_complete (j : Nat) (b : Byte) : (s.writeTx j b).complete = s.complete := rfl
@[simp] theorem writeTx_frame (j : Nat) (b : Byte) : (s.writeTx j b).frame = s.frame := rfl
@[simp] theorem writeTx_txActive (j : Nat) (b : Byte) : (s.writeTx j b).txActive = s.txActive := rfl
@[simp] theorem writeTx_txLen (j : Nat) (b : Byte) : (s.writeTx j b).txLen = s.txLen := rfl
@[simp] theorem writeTx_txH (j : Nat) (b : Byte) : (s.writeTx j b).txH = s.txH := rfl
@[simp] theorem writeTx_lineOut (j : Nat) (b : Byte) : (s.writeTx j b).lineOut = s.lineOut := rfl
@[simp] theorem writeTx_pulseReady (j : Nat) (b : Byte) : (s.writeTx j b).pulseReady = s.pulseReady := rfl
@[simp] theorem writeTx_txMem (j : Nat) (b : Byte) : (s.writeTx j b).txMem = Memory.write j b s.txMem := rfl
@[simp] theorem writeTx_params (j : Nat) (b : Byte) : (s.writeTx j b).params = s.params := rfl
@[simp] theorem writeTx_draws (j : Nat) (b : Byte) : (s.writeTx j b).draws = s.draws := rfl
@[simp] theorem writeTx_port (j : Nat) (b : Byte) : (s.writeTx j b).port = s.port := rfl
@[simp] theorem writeTx_history (j : Nat) (b : Byte) : (s.writeTx j b).history = s.history := rfl

/-! ### State.startFrame -/

@[simp] theorem startFrame_rxState (len : BitVec 16) : (s.startFrame len).rxState = s.rxState := rfl
@[simp] theorem startFrame_syncN (len : BitVec 16) : (s.startFrame len).syncN = s.syncN := rfl
@[simp] theorem startFrame_pendingHalf (len : BitVec 16) : (s.startFrame len).pendingHalf = s.pendingHalf := rfl
@[simp] theorem startFrame_lastBit (len : BitVec 16) : (s.startFrame len).lastBit = s.lastBit := rfl
@[simp] theorem startFrame_run (len : BitVec 16) : (s.startFrame len).run = s.run := rfl
@[simp] theorem startFrame_wrBits (len : BitVec 16) : (s.startFrame len).wrBits = s.wrBits := rfl
@[simp] theorem startFrame_complete (len : BitVec 16) : (s.startFrame len).complete = s.complete := rfl
@[simp] theorem startFrame_frame (len : BitVec 16) : (s.startFrame len).frame = s.frame := rfl
@[simp] theorem startFrame_txActive (len : BitVec 16) : (s.startFrame len).txActive = true := rfl
@[simp] theorem startFrame_txLen (len : BitVec 16) : (s.startFrame len).txLen = len := rfl
@[simp] theorem startFrame_txH (len : BitVec 16) : (s.startFrame len).txH = 0#21 := rfl
@[simp] theorem startFrame_lineOut (len : BitVec 16) : (s.startFrame len).lineOut = s.lineOut := rfl
@[simp] theorem startFrame_pulseReady (len : BitVec 16) : (s.startFrame len).pulseReady = false := rfl
@[simp] theorem startFrame_txMem (len : BitVec 16) : (s.startFrame len).txMem = s.txMem := rfl
@[simp] theorem startFrame_params (len : BitVec 16) : (s.startFrame len).params = s.params := rfl
@[simp] theorem startFrame_draws (len : BitVec 16) : (s.startFrame len).draws = s.draws := rfl
@[simp] theorem startFrame_port (len : BitVec 16) : (s.startFrame len).port = s.port := rfl
@[simp] theorem startFrame_history (len : BitVec 16) : (s.startFrame len).history = s.history := rfl

/-! ### State.clear -/

@[simp] theorem clear_rxState : s.clear.rxState = .idle := rfl
@[simp] theorem clear_syncN : s.clear.syncN = 0#3 := rfl
@[simp] theorem clear_pendingHalf : s.clear.pendingHalf = false := rfl
@[simp] theorem clear_lastBit : s.clear.lastBit = false := rfl
@[simp] theorem clear_run : s.clear.run = 0#3 := rfl
@[simp] theorem clear_wrBits : s.clear.wrBits = 0#16 := rfl
@[simp] theorem clear_complete : s.clear.complete = false := rfl
@[simp] theorem clear_frame : s.clear.frame = [] := rfl
@[simp] theorem clear_txActive : s.clear.txActive = false := rfl
@[simp] theorem clear_txLen : s.clear.txLen = 0#16 := rfl
@[simp] theorem clear_txH : s.clear.txH = 0#21 := rfl
@[simp] theorem clear_lineOut : s.clear.lineOut = false := rfl
@[simp] theorem clear_pulseReady : s.clear.pulseReady = false := rfl
@[simp] theorem clear_txMem : s.clear.txMem = [] := rfl
@[simp] theorem clear_params : s.clear.params = s.params := rfl
@[simp] theorem clear_draws : s.clear.draws = s.draws + 1 := rfl
@[simp] theorem clear_port : s.clear.port = s.port := rfl
@[simp] theorem clear_history : s.clear.history = s.history := rfl

/-! ### State.withPort -/

@[simp] theorem withPort_rxState (ws : List Word) : (s.withPort ws).rxState = s.rxState := rfl
@[simp] theorem withPort_syncN (ws : List Word) : (s.withPort ws).syncN = s.syncN := rfl
@[simp] theorem withPort_pendingHalf (ws : List Word) : (s.withPort ws).pendingHalf = s.pendingHalf := rfl
@[simp] theorem withPort_lastBit (ws : List Word) : (s.withPort ws).lastBit = s.lastBit := rfl
@[simp] theorem withPort_run (ws : List Word) : (s.withPort ws).run = s.run := rfl
@[simp] theorem withPort_wrBits (ws : List Word) : (s.withPort ws).wrBits = s.wrBits := rfl
@[simp] theorem withPort_complete (ws : List Word) : (s.withPort ws).complete = s.complete := rfl
@[simp] theorem withPort_frame (ws : List Word) : (s.withPort ws).frame = s.frame := rfl
@[simp] theorem withPort_txActive (ws : List Word) : (s.withPort ws).txActive = s.txActive := rfl
@[simp] theorem withPort_txLen (ws : List Word) : (s.withPort ws).txLen = s.txLen := rfl
@[simp] theorem withPort_txH (ws : List Word) : (s.withPort ws).txH = s.txH := rfl
@[simp] theorem withPort_lineOut (ws : List Word) : (s.withPort ws).lineOut = s.lineOut := rfl
@[simp] theorem withPort_pulseReady (ws : List Word) : (s.withPort ws).pulseReady = s.pulseReady := rfl
@[simp] theorem withPort_txMem (ws : List Word) : (s.withPort ws).txMem = s.txMem := rfl
@[simp] theorem withPort_params (ws : List Word) : (s.withPort ws).params = s.params := rfl
@[simp] theorem withPort_draws (ws : List Word) : (s.withPort ws).draws = s.draws := rfl
@[simp] theorem withPort_port (ws : List Word) : (s.withPort ws).port = ws := rfl
@[simp] theorem withPort_history (ws : List Word) : (s.withPort ws).history = s.history := rfl

/-! ### State.record -/

@[simp] theorem record_rxState (o : OpOutcome) (r : Option Response) : (s.record o r).rxState = s.rxState := rfl
@[simp] theorem record_syncN (o : OpOutcome) (r : Option Response) : (s.record o r).syncN = s.syncN := rfl
@[simp] theorem record_pendingHalf (o : OpOutcome) (r : Option Response) : (s.record o r).pendingHalf = s.pendingHalf := rfl
@[simp] theorem record_lastBit (o : OpOutcome) (r : Option Response) : (s.record o r).lastBit = s.lastBit := rfl
@[simp] theorem record_run (o : OpOutcome) (r : Option Response) : (s.record o r).run = s.run := rfl
@[simp] theorem record_wrBits (o : OpOutcome) (r : Option Response) : (s.record o r).wrBits = s.wrBits := rfl
@[simp] theorem record_complete (o : OpOutcome) (r : Option Response) : (s.record o r).complete = s.complete := rfl
@[simp] theorem record_frame (o : OpOutcome) (r : Option Response) : (s.record o r).frame = s.frame := rfl
@[simp] theorem record_txActive (o : OpOutcome) (r : Option Response) : (s.record o r).txActive = s.txActive := rfl
@[simp] theorem record_txLen (o : OpOutcome) (r : Option Response) : (s.record o r).txLen = s.txLen := rfl
@[simp] theorem record_txH (o : OpOutcome) (r : Option Response) : (s.record o r).txH = s.txH := rfl
@[simp] theorem record_lineOut (o : OpOutcome) (r : Option Response) : (s.record o r).lineOut = s.lineOut := rfl
@[simp] theorem record_pulseReady (o : OpOutcome) (r : Option Response) : (s.record o r).pulseReady = s.pulseReady := rfl
@[simp] theorem record_txMem (o : OpOutcome) (r : Option Response) : (s.record o r).txMem = s.txMem := rfl
@[simp] theorem record_params (o : OpOutcome) (r : Option Response) : (s.record o r).params = s.params := rfl
@[simp] theorem record_draws (o : OpOutcome) (r : Option Response) : (s.record o r).draws = s.draws := rfl
@[simp] theorem record_port (o : OpOutcome) (r : Option Response) : (s.record o r).port = s.port := rfl
@[simp] theorem record_history (o : OpOutcome) (r : Option Response) : (s.record o r).history = ⟨o, r, status s⟩ :: s.history := rfl

end Sys2Proof.Laws
end

