-- ==== Sys2Proof/Laws/Ops.lean ====
section
/-! SUPPORT. What each shared operation can do, said once: one lemma for each, which the proofs about exec and step cite
instead of unfolding it. -/

namespace Sys2Proof.Laws

open Sys2Proof Sys2Proof.Config Sys2Proof.Machine Sys2Proof.Safety

/-! ### Ends of an operation -/

@[simp] theorem conclude_next (o : OpOutcome) (r : Option Response) (s t : State) :
    conclude o r s = .next t ↔ s.record o r = t := by simp [conclude]

theorem concludeRx_next {x : RxResult} {t : State} (h : concludeRx x = .next t) :
    ∃ s o, x = .ok (s, o) ∧ t = s.record o none := by
  match x, h with
  | .ok (s, o), h => exact ⟨s, o, rfl, ((conclude_next o none s t).1 h).symm⟩

@[simp] theorem concludeRx_ok (s : State) (o : OpOutcome) : concludeRx (.ok (s, o)) = .next (s.record o none) := rfl

theorem asOverflow_ok {x : RxResult} {t : State} {o : OpOutcome} (h : asOverflow x = .ok (t, o)) :
    ∃ o', x = .ok (t, o') ∧ o = labelOverflow o' := by
  match x, h with
  | .ok (s, o'), h =>
    simp only [asOverflow, Except.ok.injEq, Prod.mk.injEq] at h
    exact ⟨o', by rw [h.1], h.2.symm⟩

@[simp] theorem desync_ok (c : DesyncCause) (s t : State) (o : OpOutcome) :
    desync c s = .ok (t, o) ↔ s.toIdle = t ∧ OpOutcome.desync c [] = o := by simp [desync]

/-! ### The decoder -/

/-- What `WriteBit` can do (spec/41_receive.md R540). -/
theorem writeBit_cases {v : Bool} {s t : State} {o : OpOutcome} (h : writeBit v s = .ok (t, o)) :
    (s.run.toNat = 7 ∧ v = true ∧ t = s.finishFrame ∧ o = .ok [.frameComplete])
    ∨ (s.run.toNat = 7 ∧ v = false ∧ t = s.dropStuffed ∧ o = .ok [.stuffed])
    ∨ (s.run.toNat ≠ 7 ∧ s.wrBits.toNat = frameBits s ∧ t = s.toIdle ∧ o = .desync .capacity [])
    ∨ (s.run.toNat ≠ 7 ∧ s.wrBits.toNat < frameBits s ∧ t = s.storeBit v ∧ o = .ok [.bit v]) := by
  unfold writeBit storeStep runLimit at h
  split at h
  · split at h <;> cases h
    · exact .inl ⟨‹_›, ‹_›, rfl, rfl⟩
    · exact .inr (.inl ⟨‹_›, by simpa using ‹¬ v = true›, rfl, rfl⟩)
  · split at h
    · cases h
      exact .inr (.inr (.inl ⟨‹_›, ‹_›, rfl, rfl⟩))
    · split at h <;> cases h
      exact .inr (.inr (.inr ⟨‹_›, ‹_›, rfl, rfl⟩))

/-! `WriteBit` on each of its branches (spec/41_receive.md R540 to R544; log entry 9 for the last). -/

theorem writeBit_terminator {s : State} (h : s.run.toNat = 7) :
    writeBit true s = .ok (s.finishFrame, .ok [.frameComplete]) := if_pos h

theorem writeBit_stuffed {s : State} (h : s.run.toNat = 7) : writeBit false s = .ok (s.dropStuffed, .ok [.stuffed]) :=
  if_pos h

theorem writeBit_full {s : State} (v : Bool) (h : s.run.toNat ≠ 7) (hw : s.wrBits.toNat = frameBits s) :
    writeBit v s = .ok (s.toIdle, .desync .capacity []) := (if_neg h).trans (if_pos hw)

theorem writeBit_store {s : State} (v : Bool) (h : s.run.toNat ≠ 7) (hw : s.wrBits.toNat < frameBits s) :
    writeBit v s = .ok (s.storeBit v, .ok [.bit v]) := (if_neg h).trans ((if_neg (by omega)).trans (if_pos hw))

theorem writeBit_outside {s : State} (v : Bool) (h : s.run.toNat ≠ 7) (hw : frameBits s < s.wrBits.toNat) :
    writeBit v s = .error .frameStoreBounds := (if_neg h).trans ((if_neg (by omega)).trans (if_neg (by omega)))

/-- `WriteBit` faults only with the cursor outside the store. -/
theorem writeBit_ok (v : Bool) {s : State} (h : s.wrBits.toNat ≤ frameBits s) : ∃ t o, writeBit v s = .ok (t, o) := by
  unfold writeBit storeStep
  split
  · split <;> exact ⟨_, _, rfl⟩
  · split
    · exact ⟨_, _, rfl⟩
    · rw [if_pos (by omega)]; exact ⟨_, _, rfl⟩

/-- What the IDLE rule can do (spec/41_receive.md R515). -/
theorem rxIdle_cases {dir : Bool} {s t : State} {o : OpOutcome} (h : rxIdle dir s = .ok (t, o)) :
    (dir = true ∧ t = s.startSync ∧ o = .ok [.syncStart]) ∨ (dir = false ∧ t = s ∧ o = .ok []) := by
  unfold rxIdle at h
  split at h <;> simp_all [eq_comm]

/-- What the SYNC rule can do (spec/41_receive.md R520, R521). -/
theorem rxSync_cases {c : IntervalClass} {s t : State} {o : OpOutcome} (h : rxSync c s = .ok (t, o)) :
    (c ≠ .long ∧ t = s.toIdle ∧ o = .desync .syncNotLong [])
    ∨ (c = .long ∧ s.syncN.toNat + 1 < 8 ∧ t = s.countSync ∧ o = .ok [])
    ∨ (c = .long ∧ ¬ s.syncN.toNat + 1 < 8 ∧ s.complete = true ∧ t = s.toIdle ∧ o = .desync .lockWhileComplete [])
    ∨ (c = .long ∧ ¬ s.syncN.toNat + 1 < 8 ∧ s.complete = false ∧ t = s.acquireLock ∧ o = .ok [.lock]) := by
  unfold rxSync rxLock lockEdges at h
  split at h
  · split at h
    · cases h
      exact .inr (.inl ⟨rfl, ‹_›, rfl, rfl⟩)
    · split at h <;> cases h
      · exact .inr (.inr (.inl ⟨rfl, ‹_›, ‹_›, rfl, rfl⟩))
      · exact .inr (.inr (.inr ⟨rfl, ‹_›, by simpa using ‹¬ s.complete = true›, rfl, rfl⟩))
  all_goals
    cases h
    exact .inl ⟨by simp, rfl, rfl⟩

/-! The SYNC rule on each of its branches for a LONG interval (spec/41_receive.md R520, R521). -/

theorem rxSync_count {s : State} (h : s.syncN.toNat + 1 < 8) : rxSync .long s = .ok (s.countSync, .ok []) := if_pos h

theorem rxSync_lock {s : State} (h : ¬ s.syncN.toNat + 1 < 8) (hc : s.complete = false) :
    rxSync .long s = .ok (s.acquireLock, .ok [.lock]) := (if_neg h).trans (if_neg (by simp [hc]))

theorem rxSync_refuse {s : State} (h : ¬ s.syncN.toNat + 1 < 8) (hc : s.complete = true) :
    rxSync .long s = .ok (s.toIdle, .desync .lockWhileComplete []) := (if_neg h).trans (if_pos hc)

/-- After a long interval no half was pending, so only the last bit changes. -/
theorem afterRecovery_flip {s : State} (hp : s.pendingHalf = false) :
    afterRecovery (!s.lastBit) s = s.setLast (!s.lastBit) := by
  cases s
  cases hp
  rfl

/-- What the DATA rule can do before a bit is recovered, or that it recovers one (spec/41_receive.md R525). -/
theorem rxData_cases {c : IntervalClass} {s t : State} {o : OpOutcome} (h : rxData c s = .ok (t, o)) :
    (c = .short ∧ s.pendingHalf = false ∧ t = s.setPending true ∧ o = .ok [])
    ∨ (c = .long ∧ s.pendingHalf = true ∧ t = s.toIdle ∧ o = .desync .dataLongAfterShort [])
    ∨ (c = .bad ∧ t = s.toIdle ∧ o = .desync .dataBadInterval [])
    ∨ ∃ v, Recovers s c v ∧ writeBit v (afterRecovery v s) = .ok (t, o) := by
  unfold rxData flippedBit at h
  split at h
  · split at h
    · rename_i hp
      exact .inr (.inr (.inr ⟨s.lastBit, .inl ⟨rfl, hp, rfl⟩, h⟩))
    · cases h
      exact .inl ⟨rfl, by simpa using ‹¬ s.pendingHalf = true›, rfl, rfl⟩
  · split at h
    · cases h
      exact .inr (.inl ⟨rfl, ‹_›, rfl, rfl⟩)
    · have hp : s.pendingHalf = false := by simpa using ‹¬ s.pendingHalf = true›
      exact .inr (.inr (.inr ⟨!s.lastBit, .inr ⟨rfl, hp, rfl⟩, (afterRecovery_flip hp) ▸ h⟩))
  · cases h
    exact .inr (.inr (.inl ⟨rfl, rfl, rfl⟩))

/-- A recovered bit goes to `WriteBit` with no half pending and itself as the last bit. -/
theorem rxData_recovers {c : IntervalClass} {s : State} {v : Bool} (h : Recovers s c v) :
    rxData c s = writeBit v (afterRecovery v s) := by
  obtain ⟨rfl, hp, rfl⟩ | ⟨rfl, hp, rfl⟩ := h
  · simp only [rxData, if_pos hp]
    rfl
  · rw [afterRecovery_flip hp]
    simp only [rxData, hp, flippedBit]
    rfl

theorem rxSync_ok (c : IntervalClass) (s : State) : ∃ t o, rxSync c s = .ok (t, o) := by
  unfold rxSync rxLock
  split
  · split
    · exact ⟨_, _, rfl⟩
    · split <;> exact ⟨_, _, rfl⟩
  all_goals exact ⟨_, _, rfl⟩

theorem rxData_ok (c : IntervalClass) {s : State} (h : s.wrBits.toNat ≤ frameBits s) :
    ∃ t o, rxData c s = .ok (t, o) := by
  unfold rxData
  split
  · split
    · exact writeBit_ok _ h
    · exact ⟨_, _, rfl⟩
  · split
    · exact ⟨_, _, rfl⟩
    · exact writeBit_ok _ h
  · exact ⟨_, _, rfl⟩

/-- An edge is consumed without a fault whenever the cursor lies in the store in DATA. -/
theorem rxEdge_ok (dir : Bool) (iv : Nat) {s : State} (h : s.rxState = .data → s.wrBits.toNat ≤ frameBits s) :
    ∃ t o, rxEdge dir iv s = .ok (t, o) := by
  unfold rxEdge
  split
  · unfold rxIdle; split <;> exact ⟨_, _, rfl⟩
  · exact rxSync_ok _ s
  · exact rxData_ok _ (h ‹_›)

/-- With legal parameters an OVERFLOW's interval is in neither window (spec/41_receive.md R501). -/
theorem classify_overflow {s : State} (h : s.params.legal = true) : classify s.params (overflowInterval s) = .bad := by
  simp [Params.legal] at h
  unfold classify overflowInterval
  rw [if_neg (by omega), if_neg (by omega)]

/-- What an OVERFLOW does with legal parameters (spec/41_receive.md R501). -/
theorem rxOverflow_eq {s : State} (h : s.params.legal = true) :
    rxOverflow s = match s.rxState with
      | .idle => .ok (s, .ok [])
      | .sync => desync .syncNotLong s
      | .data => desync .dataBadInterval s := by
  unfold rxOverflow
  rw [classify_overflow h]
  split <;> simp_all [rxSync, rxData]

/-! ### The receiver's registers after a recovered bit -/

@[simp] theorem afterRecovery_rxState (v : Bool) (s : State) : (afterRecovery v s).rxState = s.rxState := rfl
@[simp] theorem afterRecovery_syncN (v : Bool) (s : State) : (afterRecovery v s).syncN = s.syncN := rfl
@[simp] theorem afterRecovery_pendingHalf (v : Bool) (s : State) : (afterRecovery v s).pendingHalf = false := rfl
@[simp] theorem afterRecovery_lastBit (v : Bool) (s : State) : (afterRecovery v s).lastBit = v := rfl
@[simp] theorem afterRecovery_run (v : Bool) (s : State) : (afterRecovery v s).run = s.run := rfl
@[simp] theorem afterRecovery_wrBits (v : Bool) (s : State) : (afterRecovery v s).wrBits = s.wrBits := rfl
@[simp] theorem afterRecovery_complete (v : Bool) (s : State) : (afterRecovery v s).complete = s.complete := rfl
@[simp] theorem afterRecovery_frame (v : Bool) (s : State) : (afterRecovery v s).frame = s.frame := rfl
@[simp] theorem afterRecovery_txActive (v : Bool) (s : State) : (afterRecovery v s).txActive = s.txActive := rfl
@[simp] theorem afterRecovery_txLen (v : Bool) (s : State) : (afterRecovery v s).txLen = s.txLen := rfl
@[simp] theorem afterRecovery_txH (v : Bool) (s : State) : (afterRecovery v s).txH = s.txH := rfl
@[simp] theorem afterRecovery_lineOut (v : Bool) (s : State) : (afterRecovery v s).lineOut = s.lineOut := rfl
@[simp] theorem afterRecovery_pulseReady (v : Bool) (s : State) : (afterRecovery v s).pulseReady = s.pulseReady := rfl
@[simp] theorem afterRecovery_txMem (v : Bool) (s : State) : (afterRecovery v s).txMem = s.txMem := rfl
@[simp] theorem afterRecovery_params (v : Bool) (s : State) : (afterRecovery v s).params = s.params := rfl
@[simp] theorem afterRecovery_draws (v : Bool) (s : State) : (afterRecovery v s).draws = s.draws := rfl
@[simp] theorem afterRecovery_port (v : Bool) (s : State) : (afterRecovery v s).port = s.port := rfl
@[simp] theorem afterRecovery_history (v : Bool) (s : State) : (afterRecovery v s).history = s.history := rfl

/-! ### The transmitter -/

/-- What `endIfLast` leaves in each register it can change, and that it changes no other. -/
theorem endIfLast_eq (n : Nat) (s : State) :
    endIfLast n s = { s with txActive := if s.txH.toNat = n then false else s.txActive } := by
  unfold endIfLast
  split <;> simp_all [State.endFrame]

/-- What the encoder's part of TICK does, while a frame is sent (spec/40_transmit.md R420). -/
theorem sendLevel_eq {lv : List Bool} {s : State} (h : s.txActive = true) :
    sendLevel lv s = { s with
      lineOut := levelAt lv s.txH, txH := s.txH + 1#21, pulseReady := false,
      txActive := decide ((s.txH + 1#21).toNat ≠ lv.length) } := by
  simp only [sendLevel, endIfLast_eq, State.driveLevel, State.setPulse, h]
  simp

@[simp] theorem levelAt_inside {lv : List Bool} {h : BitVec 21} (hl : h.toNat < lv.length) :
    levelAt lv h = lv[h.toNat] := by simp [levelAt, List.getElem?_eq_getElem hl]

/-! ### The two arrays -/

theorem frameBytes?_some {s : State} {n : Nat} (h : n ≤ s.params.bufBytes) :
    frameBytes? s n = some ((List.range n).map (frameByte s)) := by simp [frameBytes?, h]

theorem frameBytes?_none {s : State} {n : Nat} (h : s.params.bufBytes < n) : frameBytes? s n = none := by
  simp [frameBytes?]; omega

theorem payload?_some {s : State} (h : s.txLen.toNat ≤ s.params.txBufBytes) :
    payload? s = some ((List.range s.txLen.toNat).map (txByte s)) := by simp [payload?, txBytes?, h]

theorem payload?_none {s : State} (h : s.params.txBufBytes < s.txLen.toNat) : payload? s = none := by
  simp [payload?, txBytes?]; omega

/-- The frame store reads by its cells and its draw alone. -/
theorem frameBit_congr {s t : State} (hf : t.frame = s.frame) (hd : t.draws = s.draws) (i : Nat) :
    frameBit t i = frameBit s i := by simp [frameBit, hf, hd]

theorem frameByte_congr {s t : State} (hf : t.frame = s.frame) (hd : t.draws = s.draws) (j : Nat) :
    frameByte t j = frameByte s j := by simp [frameByte, frameBit_congr hf hd]

/-- `TxMem` reads by its cells and its draw alone. -/
theorem txByte_congr {s t : State} (hm : t.txMem = s.txMem) (hd : t.draws = s.draws) (j : Nat) :
    txByte t j = txByte s j := by simp [txByte, hm, hd]

theorem payload?_congr {s t : State} (hm : t.txMem = s.txMem) (hd : t.draws = s.draws) (hl : t.txLen = s.txLen)
    (hp : t.params = s.params) : payload? t = payload? s := by
  have e : txByte t = txByte s := funext (txByte_congr hm hd)
  simp [payload?, txBytes?, hl, hp, e]

@[simp] theorem frameBit_record (o : OpOutcome) (r : Option Response) (s : State) (i : Nat) :
    frameBit (s.record o r) i = frameBit s i := rfl

@[simp] theorem frameByte_record (o : OpOutcome) (r : Option Response) (s : State) (j : Nat) :
    frameByte (s.record o r) j = frameByte s j := rfl

@[simp] theorem txByte_record (o : OpOutcome) (r : Option Response) (s : State) (j : Nat) :
    txByte (s.record o r) j = txByte s j := rfl

@[simp] theorem payload?_record (o : OpOutcome) (r : Option Response) (s : State) :
    payload? (s.record o r) = payload? s := rfl

@[simp] theorem frameBit_afterRecovery (v : Bool) (s : State) (i : Nat) :
    frameBit (afterRecovery v s) i = frameBit s i := rfl

@[simp] theorem frameBits_afterRecovery (v : Bool) (s : State) : frameBits (afterRecovery v s) = frameBits s := rfl

/-- A stored bit reads back, and every other bit reads as before (spec/20_memory.md R211). -/
theorem frameBit_storeBit (v : Bool) (s : State) (i : Nat) :
    frameBit (s.storeBit v) i = if i = s.wrBits.toNat then v else frameBit s i := by
  simp only [frameBit, storeBit_frame, storeBit_draws, read_write]
  split <;> simp

/-- A written byte reads back, and every other byte reads as before (spec/40_transmit.md R430). -/
theorem txByte_writeTx (j : Nat) (b : Byte) (s : State) (i : Nat) :
    txByte (s.writeTx j b) i = if i = j then b else txByte s i := by
  simp only [txByte, writeTx_txMem, writeTx_draws, read_write]
  split <;> simp

end Sys2Proof.Laws
end

