-- ==== Sys2Proof/Laws/Exec.lean ====
section
/-! SUPPORT. What each operation can do when it answers a next state, said once for each meaning: the cases that the
proofs about exec and step go through. -/

namespace Sys2Proof.Laws

open Sys2Proof Sys2Proof.Config Sys2Proof.Machine Sys2Proof.Safety

variable {s t : State}

/-- TICK (spec/40_transmit.md R420). -/
theorem tick_cases (h : exec .tick s = .next t) :
    (s.txActive = false ∧ t = s.setPulse.record (.ok []) none)
    ∨ (s.txActive = true ∧ ∃ p, payload? s = some p ∧ t = (sendLevel (txLevels p) s).record (.ok []) none) := by
  simp only [exec, execTick] at h
  cases ha : s.txActive with
  | false =>
    simp only [ha, Bool.false_eq_true, if_false] at h
    exact .inl ⟨rfl, ((conclude_next ..).1 h).symm⟩
  | true =>
    simp only [ha, if_true] at h
    cases hp : payload? s with
    | none => rw [hp] at h; cases h
    | some p => rw [hp] at h; exact .inr ⟨rfl, p, rfl, ((conclude_next ..).1 h).symm⟩

/-- TX_WRITE (spec/40_transmit.md R430). -/
theorem txWrite_cases {idx : BitVec 16} {data : Byte} (h : exec (.txWrite idx data) s = .next t) :
    (s.txActive = true ∧ t = s.record (.ignore .txBusy) none)
    ∨ (s.txActive = false ∧ s.params.txBufBytes ≤ idx.toNat ∧ t = s.record (.ignore .txIndex) none)
    ∨ (s.txActive = false ∧ idx.toNat < s.params.txBufBytes
        ∧ t = (s.writeTx idx.toNat data).record (.ok []) none) := by
  simp only [exec, execTxWrite, idxOperand] at h
  cases ha : s.txActive with
  | true => simp only [ha, if_true] at h; exact .inl ⟨rfl, ((conclude_next ..).1 h).symm⟩
  | false =>
    simp only [ha, Bool.false_eq_true, if_false] at h
    by_cases hi : s.params.txBufBytes ≤ idx.toNat
    · rw [if_pos hi] at h; exact .inr (.inl ⟨rfl, hi, ((conclude_next ..).1 h).symm⟩)
    · rw [if_neg hi] at h; exact .inr (.inr ⟨rfl, by omega, ((conclude_next ..).1 h).symm⟩)

/-- TX_START (spec/40_transmit.md R440). -/
theorem txStart_cases {len : BitVec 16} (h : exec (.txStart len) s = .next t) :
    (s.txActive = true ∧ t = s.record (.ignore .txBusy) none)
    ∨ (s.txActive = false ∧ s.params.txBufBytes < len.toNat ∧ t = s.record (.ignore .txLength) none)
    ∨ (s.txActive = false ∧ len.toNat ≤ s.params.txBufBytes ∧ t = (s.startFrame len).record (.ok []) none) := by
  simp only [exec, execTxStart, lenOperand] at h
  cases ha : s.txActive with
  | true => simp only [ha, if_true] at h; exact .inl ⟨rfl, ((conclude_next ..).1 h).symm⟩
  | false =>
    simp only [ha, Bool.false_eq_true, if_false] at h
    by_cases hi : s.params.txBufBytes < len.toNat
    · rw [if_pos hi] at h; exact .inr (.inl ⟨rfl, hi, ((conclude_next ..).1 h).symm⟩)
    · rw [if_neg hi] at h; exact .inr (.inr ⟨rfl, by omega, ((conclude_next ..).1 h).symm⟩)

/-- TAKE (spec/42_frame_store.md R601). -/
theorem take_cases {len : BitVec 16} (h : exec (.take len) s = .next t) :
    (s.complete = false ∧ t = s.record (.ok []) (some emptyResponse))
    ∨ (s.complete = true ∧ takeCount len s ≤ s.params.bufBytes
        ∧ t = s.releaseFrame.record (.ok [])
            (some (responseOf ((List.range (takeCount len s)).map (frameByte s))))) := by
  simp only [exec, execTake] at h
  cases hc : s.complete with
  | false =>
    simp only [hc, Bool.false_eq_true, if_false] at h
    exact .inl ⟨rfl, ((conclude_next ..).1 h).symm⟩
  | true =>
    simp only [hc, if_true] at h
    by_cases hb : takeCount len s ≤ s.params.bufBytes
    · rw [frameBytes?_some hb] at h; exact .inr ⟨rfl, hb, ((conclude_next ..).1 h).symm⟩
    · rw [frameBytes?_none (by omega)] at h; cases h

/-- RESET (spec/43_control.md R650). -/
theorem reset_next (s : State) : exec .reset s = .next (s.clear.record (.ok []) none) := rfl

/-- EDGE, down to the rule for the decoder's state (spec/41_receive.md R500). -/
theorem edge_cases {dir : Bool} {iv : BitVec 16} (h : exec (.edge dir iv) s = .next t) :
    ∃ u o, t = u.record o none
      ∧ ((s.rxState = .idle ∧ rxIdle dir s = .ok (u, o))
        ∨ (s.rxState = .sync ∧ rxSync (classify s.params iv.toNat) s = .ok (u, o))
        ∨ (s.rxState = .data ∧ rxData (classify s.params iv.toNat) s = .ok (u, o))) := by
  obtain ⟨u, o, hx, rfl⟩ := concludeRx_next (show concludeRx (rxEdge dir (ivOperand iv) s) = .next t from h)
  refine ⟨u, o, rfl, ?_⟩
  unfold rxEdge ivOperand at hx
  cases hr : s.rxState <;> simp only [hr] at hx
  · exact .inl ⟨rfl, hx⟩
  · exact .inr (.inl ⟨rfl, hx⟩)
  · exact .inr (.inr ⟨rfl, hx⟩)

/-- OVERFLOW, down to the rule for the decoder's state, for any parameters (spec/41_receive.md R501). -/
theorem overflow_cases (h : exec .overflow s = .next t) :
    ∃ u o, t = u.record (labelOverflow o) none
      ∧ ((s.rxState = .idle ∧ u = s ∧ o = .ok [])
        ∨ (s.rxState = .sync ∧ rxSync (classify s.params (overflowInterval s)) s = .ok (u, o))
        ∨ (s.rxState = .data ∧ rxData (classify s.params (overflowInterval s)) s = .ok (u, o))) := by
  obtain ⟨u, o', hx, rfl⟩ := concludeRx_next (show concludeRx (asOverflow (rxOverflow s)) = .next t from h)
  obtain ⟨o, hy, rfl⟩ := asOverflow_ok hx
  clear hx h
  refine ⟨u, o, rfl, ?_⟩
  unfold rxOverflow at hy
  revert hy
  cases hr : s.rxState <;> intro hx
  · cases hx; exact .inl ⟨rfl, rfl, rfl⟩
  · exact .inr (.inl ⟨rfl, hx⟩)
  · exact .inr (.inr ⟨rfl, hx⟩)

/-- The status outputs of a state, bit by bit (spec/10_state.md R147). -/
theorem status_congr (hl : t.lineOut = s.lineOut) (hc : t.complete = s.complete) (ha : t.txActive = s.txActive) :
    status t = status s := by simp [status, line, frameReady, txBusy, hl, hc, ha]

@[simp] theorem status_clear (s : State) : status s.clear = 0#3 := by
  simp [status, line, frameReady, txBusy]

end Sys2Proof.Laws
end

