-- ==== Sys2Proof/Laws/LineCode.lean ====
section
/-! SUPPORT. The small laws of the wire format. -/

namespace Sys2Proof.Laws

open Sys2Proof Sys2Proof.Config Sys2Proof.Machine

/-- Packing eight bits and reading them back, most significant first (spec/20_memory.md R210). -/
theorem byteBits_packByte (b7 b6 b5 b4 b3 b2 b1 b0 : Bool) :
    byteBits (packByte b7 b6 b5 b4 b3 b2 b1 b0) = [b7, b6, b5, b4, b3, b2, b1, b0] := by
  revert b7 b6 b5 b4 b3 b2 b1 b0
  decide

/-- A byte is determined by its bits. -/
theorem byteBits_inj {a b : Byte} (h : byteBits a = byteBits b) : a = b := by
  simp only [byteBits, List.cons.injEq, and_true] at h
  obtain ⟨h7, h6, h5, h4, h3, h2, h1, h0⟩ := h
  refine BitVec.eq_of_getLsbD_eq fun i hi => ?_
  have : i = 0 ∨ i = 1 ∨ i = 2 ∨ i = 3 ∨ i = 4 ∨ i = 5 ∨ i = 6 ∨ i = 7 := by omega
  obtain rfl | rfl | rfl | rfl | rfl | rfl | rfl | rfl := this <;> assumption

@[simp] theorem byteBits_length (b : Byte) : (byteBits b).length = 8 := rfl

@[simp] theorem payloadBits_nil : payloadBits [] = [] := rfl

@[simp] theorem payloadBits_cons (b : Byte) (p : List Byte) : payloadBits (b :: p) = byteBits b ++ payloadBits p := rfl

/-- `8*L` payload bits (spec/40_transmit.md R400). -/
@[simp] theorem payloadBits_length (p : List Byte) : (payloadBits p).length = 8 * p.length := by
  induction p with
  | nil => rfl
  | cons b p ih => simp [ih]; omega

@[simp] theorem preambleBits_eq : preambleBits = [true, false, true, false, true, false, true, false] := by decide

@[simp] theorem terminatorBits_eq : terminatorBits = List.replicate 8 true := rfl

/-- The levels of a wire bit: its complement, then itself (spec/40_transmit.md R410). -/
@[simp] theorem bitLevels_eq (b : Bool) : bitLevels b = [!b, b] := by cases b <;> rfl

/-- One bit of the stuffing loop (spec/40_transmit.md R403). -/
theorem stuffFrom_cons (run : Nat) (b : Bool) (bs : List Bool) :
    stuffFrom run (b :: bs)
      = if countRun run b = 7 then b :: false :: stuffFrom 0 bs else b :: stuffFrom (countRun run b) bs := rfl

@[simp] theorem stuffFrom_nil (run : Nat) : stuffFrom run [] = [] := rfl

/-- From a counter below 7, at most one stuffed bit for each 7 bits of the counter and the list together. -/
theorem stuffFrom_length_le {run : Nat} (h : run < 7) (x : List Bool) :
    (stuffFrom run x).length ≤ x.length + (run + x.length) / 7 := by
  induction x generalizing run with
  | nil => simp
  | cons b bs ih =>
    rw [stuffFrom_cons]
    cases b
    · have := ih (run := 0) (by omega)
      simp only [countRun, Bool.false_eq_true, if_false, List.length_cons] at this ⊢
      simp
      omega
    · simp only [countRun, if_true]
      split
      · have := ih (run := 0) (by omega)
        simp only [List.length_cons]
        omega
      · have := ih (run := run + 1) (by omega)
        simp only [List.length_cons]
        omega

/-- Stuffing removes nothing. -/
theorem length_le_stuffFrom (run : Nat) (x : List Bool) : x.length ≤ (stuffFrom run x).length := by
  induction x generalizing run with
  | nil => simp
  | cons b bs ih =>
    rw [stuffFrom_cons]
    split
    · have := ih 0
      simp; omega
    · have := ih (countRun run b)
      simp; omega

theorem wireBits_length (p : List Byte) : (wireBits p).length = 16 + (stuff (payloadBits p)).length := by
  simp [wireBits]; omega

theorem txLevels_length (p : List Byte) : (txLevels p).length = 2 * (wireBits p).length := by
  simp only [txLevels]
  induction wireBits p with
  | nil => rfl
  | cons b bs ih => simp_all; omega

end Sys2Proof.Laws
end

