-- ==== Sys2Proof/Laws/PerInstr.lean ====
section
/-! SUPPORT. One lemma for each operation: its word matches its own row of spec/30_encoding.md R311, that row is in the
table under the operation's mnemonic, and the operation is well formed. -/

namespace Sys2Proof.Laws

open Sys2Proof

/-- The word of `i` is accepted by the row of `i`, which the table holds under the mnemonic of `i`
(spec/30_encoding.md R310, R311). -/
def RowMatch.Statement (i : Instr) : Prop :=
  i.row.accepts (encode i) = true ∧ i.row ∈ opTable ∧ i.row.mnemonic = i.mnemonic ∧ i.wellFormed = true

/-- Masking by all ones keeps a field, masking by zeros clears it. -/
theorem and_ones {n : Nat} (x : BitVec n) : x &&& BitVec.allOnes n = x := by simp

theorem formatE_masked (op : BitVec 4) (dir : Bool) (iv : BitVec 16) :
    formatE op dir iv &&& (BitVec.allOnes 4 ++ BitVec.allOnes 11 ++ 0#1 ++ 0#16) = op ++ 0#28 := by
  rw [formatE, BitVec.and_append, BitVec.and_append, BitVec.and_append, and_ones, and_ones, BitVec.and_zero,
    BitVec.and_zero]
  exact BitVec.eq_of_toNat_eq (by simp only [append_toNat, BitVec.toNat_ofNat]; omega)

theorem formatW_masked (op : BitVec 4) (idx : BitVec 16) (data : Byte) :
    formatW op idx data &&& (BitVec.allOnes 4 ++ BitVec.allOnes 4 ++ 0#16 ++ 0#8) = op ++ 0#28 := by
  rw [formatW, BitVec.and_append, BitVec.and_append, BitVec.and_append, and_ones, and_ones, BitVec.and_zero,
    BitVec.and_zero]
  exact BitVec.eq_of_toNat_eq (by simp only [append_toNat, BitVec.toNat_ofNat]; omega)

theorem formatL_masked (op : BitVec 4) (len : BitVec 16) :
    formatL op len &&& (BitVec.allOnes 4 ++ BitVec.allOnes 12 ++ 0#16) = op ++ 0#28 := by
  rw [formatL, BitVec.and_append, BitVec.and_append, and_ones, and_ones, BitVec.and_zero]
  exact BitVec.eq_of_toNat_eq (by simp only [append_toNat, BitVec.toNat_ofNat]; omega)

theorem RowMatch.tick : RowMatch.Statement .tick := by
  refine ⟨?_, ?_, rfl, rfl⟩ <;> decide

theorem RowMatch.edge (dir : Bool) (iv : BitVec 16) : RowMatch.Statement (.edge dir iv) :=
  ⟨(accepts_iff _ _).2 (formatE_masked 0x2#4 dir iv), by simp [opTable, Instr.row], rfl, rfl⟩

theorem RowMatch.overflow : RowMatch.Statement .overflow := by
  refine ⟨?_, ?_, rfl, rfl⟩ <;> decide

theorem RowMatch.txWrite (idx : BitVec 16) (data : Byte) : RowMatch.Statement (.txWrite idx data) :=
  ⟨(accepts_iff _ _).2 (formatW_masked 0x4#4 idx data), by simp [opTable, Instr.row], rfl, rfl⟩

theorem RowMatch.txStart (len : BitVec 16) : RowMatch.Statement (.txStart len) :=
  ⟨(accepts_iff _ _).2 (formatL_masked 0x5#4 len), by simp [opTable, Instr.row], rfl, rfl⟩

theorem RowMatch.take (len : BitVec 16) : RowMatch.Statement (.take len) :=
  ⟨(accepts_iff _ _).2 (formatL_masked 0x6#4 len), by simp [opTable, Instr.row], rfl, rfl⟩

theorem RowMatch.reset : RowMatch.Statement .reset := by
  refine ⟨?_, ?_, rfl, rfl⟩ <;> decide

end Sys2Proof.Laws
end

