-- ==== Sys2Proof/Tests/Slice0.lean ====
section
/-! SUPPORT. Tests whose expected results are the vectors of spec/95_test_vectors.md or words written out from the
layouts of spec/30_encoding.md R301, and a witness for the hypotheses of each statement. -/

namespace Sys2Proof.Tests

open Sys2Proof Sys2Proof.Config Sys2Proof.Machine Sys2Proof.Safety

/-! ### Small states -/

/-- The reset state with legal parameters and small arrays. -/
def small (buf tx : Nat) : State := { State.reset with params := { Params.default with bufBytes := buf, txBufBytes := tx } }

/-- A state of the receiver, as the tables of spec/95_test_vectors.md write it. -/
def rx (r : RxState) (n : BitVec 3) (pend last : Bool) (run : BitVec 3) (wr : BitVec 16) (complete : Bool) : State :=
  { State.reset with
    rxState := r, syncN := n, pendingHalf := pend, lastBit := last, run := run, wrBits := wr, complete := complete }

/-- A transmitter that sends the first `len` bytes of a memory holding 80H at index 0. -/
def sending (len : BitVec 16) (h : BitVec 21) : State :=
  { State.reset with txActive := true, txLen := len, txH := h, txMem := [(0, 0x80#8)] }

/-- The receiver's registers, in the order of the tables. -/
structure RxRegs where
  rxState     : RxState
  syncN       : BitVec 3
  pendingHalf : Bool
  lastBit     : Bool
  run         : BitVec 3
  wrBits      : BitVec 16
  complete    : Bool
  deriving DecidableEq, Repr

/-- Receiver registers after an outcome. -/
def rxView (o : Host.Outcome State Fault Refusal) : Option RxRegs :=
  match o with
  | .next s    => some ⟨s.rxState, s.syncN, s.pendingHalf, s.lastBit, s.run, s.wrBits, s.complete⟩
  | .fault _   => none
  | .refused _ => none

/-- Transmitter registers after an outcome, in the order of the tables. -/
def txView (o : Host.Outcome State Fault Refusal) : Option (Bool × BitVec 16 × BitVec 21 × Bool × Bool) :=
  match o with
  | .next s    => some (s.txActive, s.txLen, s.txH, s.lineOut, s.pulseReady)
  | .fault _   => none
  | .refused _ => none

/-- The byte written at an index of `TxMem`, after an outcome. -/
def written (j : Nat) (o : Host.Outcome State Fault Refusal) : Option Byte :=
  match o with
  | .next s    => Memory.read s.txMem j
  | .fault _   => none
  | .refused _ => none

/-- The newest event of an outcome. -/
def lastEvent (o : Host.Outcome State Fault Refusal) : Option Event :=
  match o with
  | .next s    => s.history.head?
  | .fault _   => none
  | .refused _ => none

/-- One step on a state with one word presented. -/
def stepOn (w : Word) (s : State) : Host.Outcome State Fault Refusal := step (s.withPort [w])

/-! ### Well-formedness: an ill-formed word for each row, and for the reserved opcodes -/

theorem test_wellformed_tick_reserved_bit : legalWord 0x10000001#32 = false := by decide
theorem test_wellformed_edge_reserved_bit : legalWord 0x20020000#32 = false := by decide
theorem test_wellformed_overflow_reserved_bit : legalWord 0x38000000#32 = false := by decide
theorem test_wellformed_txWrite_reserved_bit : legalWord 0x41000000#32 = false := by decide
theorem test_wellformed_txStart_reserved_bit : legalWord 0x50010006#32 = false := by decide
theorem test_wellformed_take_reserved_bit : legalWord 0x68000000#32 = false := by decide
theorem test_wellformed_reset_reserved_bit : legalWord 0x70000010#32 = false := by decide
theorem test_wellformed_opcode_0 : legalWord 0x00000000#32 = false := by decide
theorem test_wellformed_opcode_8 : legalWord 0x80000000#32 = false := by decide
theorem test_wellformed_accepts_edge : legalWord 0x2001007D#32 = true := by decide

/-! ### Decoding (R301, R310; V2.1): a word for each row, and its encoding -/

theorem test_decode_tick : decode 0b00010000000000000000000000000000#32 = .op .tick := by decide
theorem test_decode_edge : decode 0b00100000000000010000000001111101#32 = .op (.edge true 125#16) := by decide
theorem test_decode_edge_falling : decode 0b00100000000000001111111111111111#32 = .op (.edge false 65535#16) := by decide
theorem test_decode_overflow : decode 0b00110000000000000000000000000000#32 = .op .overflow := by decide
theorem test_decode_txWrite : decode 0b01000000000000000010101001001111#32 = .op (.txWrite 42#16 0x4F#8) := by decide
theorem test_decode_txStart : decode 0b01010000000000000000000000000110#32 = .op (.txStart 6#16) := by decide
theorem test_decode_take : decode 0b01100000000000000000000001000000#32 = .op (.take 64#16) := by decide
theorem test_decode_reset : decode 0b01110000000000000000000000000000#32 = .op .reset := by decide
theorem test_decode_opcode_8 : decode 0x80000000#32 = .refuse .reserved := by decide
theorem test_encode_txWrite : encode (.txWrite 32767#16 0xFF#8) = 0x407FFFFF#32 := by decide
theorem test_encode_edge : encode (.edge true 65535#16) = 0x2001FFFF#32 := by decide

/-! ### Text syntax (R360; V2.2) -/

/-- `EDGE R, 125`, with a comment line before it. -/
theorem test_script_edge : assembleScript Params.default [';', ' ', 'x', '\n', 'E', 'D', 'G', 'E', ' ', 'R', ',', ' ',
    '1', '2', '5'] = some [0x2001007D#32] := by decide

/-- `TXW 42, 0x4F`: a hexadecimal number. -/
theorem test_script_txw : assembleScript Params.default ['T', 'X', 'W', ' ', '4', '2', ',', ' ', '0', 'x', '4', 'F']
    = some [0x40002A4F#32] := by decide

/-- A value too large for its field is a syntax error. -/
theorem test_script_too_large : assemble Params.default (.edge true 65536) = none
    ∧ assemble Params.default (.edge true 65535) = some [0x2001FFFF#32]
    ∧ assemble Params.default (.txw 0 256) = none ∧ assemble Params.default (.txw 65536 0) = none
    ∧ assemble Params.default (.txs 65536) = none ∧ assemble Params.default (.take 65536) = none
    ∧ assemble Params.default (.word 4294967296) = none
    ∧ assemble Params.default (.word 4294967295) = some [0xFFFFFFFF#32] := by decide

/-- `SEND` with no bytes is `TXS 0` and 32 TICKs (R361). -/
theorem test_script_send_empty : assemble Params.default (.send [])
    = some (0x50000000#32 :: List.replicate 32 0x10000000#32) := by decide

/-! ### One step of each operation -/

/-- V2.5 row 1: an idle TICK sets `pulse_ready` alone. -/
theorem test_tick_idle : txView (stepOn 0x10000000#32 State.reset) = some (false, 0#16, 0#21, false, true) := by decide

/-- V2.5: the 48th TICK of the frame of one byte 80H drives 1 and ends the frame. -/
theorem test_tick_last : txView (stepOn 0x10000000#32 (sending 1#16 47#21)) = some (false, 1#16, 48#21, true, false) := by
  decide

/-- V2.5 row 2: the byte reads back, at its index alone. -/
theorem test_txWrite_stores : written 0 (stepOn 0x40000080#32 State.reset) = some 0x80#8
    ∧ written 1 (stepOn 0x40000080#32 State.reset) = none := by decide

/-- V2.5 rows 3 and 7: an index outside `TxMem`, and a busy transmitter. -/
theorem test_txWrite_ignored : lastEvent (stepOn 0x40008011#32 State.reset) = some ⟨.ignore .txIndex, none, 0#3⟩
    ∧ lastEvent (stepOn 0x40008011#32 (sending 1#16 0#21)) = some ⟨.ignore .txBusy, none, 1#3⟩ := by decide

/-- V2.5 row 5. -/
theorem test_txStart : txView (stepOn 0x50000001#32 { State.reset with pulseReady := true })
    = some (true, 1#16, 0#21, false, false) := by decide

/-- V2.5 rows 4 and 6. -/
theorem test_txStart_ignored : lastEvent (stepOn 0x50000081#32 State.reset) = some ⟨.ignore .txLength, none, 0#3⟩
    ∧ lastEvent (stepOn 0x50000002#32 (sending 1#16 0#21)) = some ⟨.ignore .txBusy, none, 1#3⟩ := by decide

/-- V2.6 row 12: lock. -/
theorem test_edge_lock : rxView (stepOn 0x200000FA#32 (rx .sync 7#3 true true 5#3 40#16 false))
    = some ⟨.data, 7#3, false, false, 0#3, 0#16, false⟩ := by decide

/-- V2.8 row 3: the terminator retracts 7 bits. -/
theorem test_edge_complete : rxView (stepOn 0x2001007D#32 (rx .data 0#3 true true 7#3 55#16 false))
    = some ⟨.idle, 0#3, false, true, 7#3, 48#16, true⟩ := by decide

/-- V2.6 row 11 and V2.7 row 8: the outcomes of an OVERFLOW. -/
theorem test_overflow_outcomes :
    lastEvent (stepOn 0x30000000#32 (rx .sync 3#3 false false 0#3 0#16 false))
      = some ⟨.desync .syncNotLong [.overflow], none, 0#3⟩
    ∧ lastEvent (stepOn 0x30000000#32 (rx .data 0#3 false true 3#3 11#16 false))
      = some ⟨.desync .dataBadInterval [.overflow], none, 0#3⟩ := by decide

/-- V2.6 row 3: an OVERFLOW in IDLE changes nothing. -/
theorem test_overflow_idle : rxView (stepOn 0x30000000#32 (rx .idle 0#3 false false 0#3 0#16 false))
    = some ⟨.idle, 0#3, false, false, 0#3, 0#16, false⟩ := by decide

/-- A completed frame of one byte FEH, as P4 leaves it. -/
def completed : State :=
  { rx .idle 7#3 false true 7#3 8#16 true with
    frame := [(0, true), (1, true), (2, true), (3, true), (4, true), (5, true), (6, true), (7, false)] }

/-- P4 row 93: the byte, most significant bit first. -/
theorem test_take : lastEvent (stepOn 0x60000004#32 completed) = some ⟨.ok [], some ⟨1#16, [0xFE#8]⟩, 0#3⟩
    ∧ rxView (stepOn 0x60000004#32 completed) = some ⟨.idle, 7#3, false, true, 7#3, 0#16, false⟩ := by decide

/-- R602: `LEN` 0 loses the frame. -/
theorem test_take_len_0 : lastEvent (stepOn 0x60000000#32 completed) = some ⟨.ok [], some ⟨0#16, []⟩, 0#3⟩
    ∧ rxView (stepOn 0x60000000#32 completed) = some ⟨.idle, 7#3, false, true, 7#3, 0#16, false⟩ := by decide

/-- R651: a RESET during a transmission, with a frame awaiting TAKE. -/
theorem test_reset : txView (stepOn 0x70000000#32 { completed with txActive := true, lineOut := true, txH := 5#21 })
      = some (false, 0#16, 0#21, false, false)
    ∧ rxView (stepOn 0x70000000#32 completed) = some ⟨.idle, 0#3, false, false, 0#3, 0#16, false⟩ := by decide

/-- P6 row 9: a refused word changes no register and keeps a mark. -/
theorem test_refused_word : lastEvent (stepOn 0x30000001#32 (sending 1#16 1#21)) = some ⟨.refuse .reserved, none, 1#3⟩
    ∧ txView (stepOn 0x30000001#32 (sending 1#16 1#21)) = some (true, 1#16, 1#21, false, false) := by decide

/-- A table row's word is the next operation applied (log entry 1). -/
theorem test_withFetchWord : txView (step (State.reset.withFetchWord 32 0x10000000))
    = some (false, 0#16, 0#21, false, true) := by decide

/-! ### The wire format (V1, R402, R403, R406) -/

/-- R403's example. -/
theorem test_stuff : stuff (payloadBits [0xFE#8]) = [true, true, true, true, true, true, true, false, false] := by decide

/-- R406: 64 wire bits for "FOOBAR". -/
theorem test_frame_length : (wireBits [0x46#8, 0x4F#8, 0x4F#8, 0x42#8, 0x41#8, 0x52#8]).length = 64 := by decide

/-! ### Parameters and status -/

/-- R9's defaults: `HALF_US` is an argument of its own. -/
theorem test_default_periods : Params.default.pUs = 250 ∧ Params.default.halfUs = 125
    ∧ Params.timed { Params.default with halfUs := 150 } = true
    ∧ Params.timed { Params.default with halfUs := 151 } = false := by decide

/-- R147: each status output alone. -/
theorem test_status_bits : status { State.reset with txActive := true } = 0b001#3
    ∧ status { State.reset with complete := true } = 0b010#3
    ∧ status { State.reset with lineOut := true } = 0b100#3 := by decide

/-! ### Witnesses: states and operands that meet the hypotheses of the statements, clause by clause -/

theorem witness_EncodeDecodeRoundTrip : decode 0x407FFFFF#32 = .op (.txWrite 32767#16 0xFF#8) := by decide

theorem witness_StepAppliesDecodedOp : (State.reset.withPort [0x10000000#32]).params.legal = true
    ∧ (State.reset.withPort [0x10000000#32]).port = 0x10000000#32 :: [] ∧ decode 0x10000000#32 = .op .tick := by decide

theorem witness_StepMarksRefusedWord : (State.reset.withPort [0x10000001#32]).params.legal = true
    ∧ (State.reset.withPort [0x10000001#32]).port = 0x10000001#32 :: []
    ∧ decode 0x10000001#32 = .refuse .reserved := by decide

/-- Both sides of the equivalence occur: at the edge of the third line of R10 and past it. -/
theorem witness_IllegalParametersRefused : (small 8191 65535).params.legal = true
    ∧ (small 8192 0).params.legal = false ∧ (small 0 0).params.legal = false ∧ (small 1 65536).params.legal = false
    ∧ Params.legal { Params.default with shortMax := 200 } = false := by decide

theorem witness_NothingPresentedPersists : State.reset.params.legal = true ∧ State.reset.port = [] := by decide

theorem witness_OneOutcomeAndOnlyTakeReturns : ∃ t, exec (.take 4#16) completed = .next t := ⟨_, rfl⟩

/-- Idle; sending, at the first and at the last level of an empty payload's 32. -/
theorem witness_TickRule : State.reset.txActive = false
    ∧ (sending 0#16 0#21).txActive = true ∧ (sending 0#16 0#21).txLen.toNat ≤ (sending 0#16 0#21).params.txBufBytes
    ∧ (sending 0#16 0#21).txH.toNat < (txLevels []).length
    ∧ (sending 0#16 31#21).txH.toNat < (txLevels []).length
    ∧ (List.range (sending 0#16 31#21).txLen.toNat).map (txByte (sending 0#16 31#21)) = [] := by decide

theorem witness_TickPastTheEndCompletes : (sending 0#16 32#21).txActive = true
    ∧ (sending 0#16 32#21).txLen.toNat ≤ (sending 0#16 32#21).params.txBufBytes
    ∧ (txLevels ((List.range (sending 0#16 32#21).txLen.toNat).map (txByte (sending 0#16 32#21)))).length
      ≤ (sending 0#16 32#21).txH.toNat := by decide

theorem witness_TxWriteRule : (sending 0#16 0#21).txActive = true ∧ State.reset.txActive = false
    ∧ State.reset.params.txBufBytes ≤ (128#16 : BitVec 16).toNat
    ∧ (127#16 : BitVec 16).toNat < State.reset.params.txBufBytes := by decide

theorem witness_TxStartRule : (sending 0#16 0#21).txActive = true ∧ State.reset.txActive = false
    ∧ State.reset.params.txBufBytes < (129#16 : BitVec 16).toNat
    ∧ (128#16 : BitVec 16).toNat ≤ State.reset.params.txBufBytes := by decide

/-- An empty payload: 32 levels, so the first clause has `k` from 1 to 31. -/
theorem witness_FrameConsumesItsTicks : State.reset.txActive = false
    ∧ (0#16 : BitVec 16).toNat ≤ State.reset.params.txBufBytes
    ∧ [] = (List.range (0#16 : BitVec 16).toNat).map (txByte State.reset)
    ∧ 1 ≤ 31 ∧ 31 < 2 * (wireBits []).length := by decide

theorem witness_SendExpansionEndsIdle : State.reset.txActive = false
    ∧ [0xFE#8].length ≤ State.reset.params.txBufBytes ∧ [0xFE#8].length < 2 ^ 16 := by decide

/-- A payload with a stuffed bit: both a run and a change of wire bits occur. -/
theorem witness_LineTransitions : 0 + 1 < (wireBits [0xFE#8]).length
    ∧ (wireBits [0xFE#8])[0]? ≠ (wireBits [0xFE#8])[1]? ∧ (wireBits [0xFE#8])[8]? = (wireBits [0xFE#8])[9]? := by decide

/-- Trailing 1s of length 7 and 8: the second clause of R404 item 3 applies to the first. -/
theorem witness_StuffTrailingOnes : 0 < trailingOnes (payloadBits [0x7F#8]) ∧ trailingOnes (payloadBits [0x7F#8]) % 7 = 0
    ∧ trailingOnes (payloadBits [0xFF#8]) % 7 = 1 := by decide

theorem witness_TxLevelsAreManchester : 23 < (wireBits [0x80#8]).length := by decide

/-- The bounds of both windows and the values beside them (R512). -/
theorem witness_ClassifyWindows : Params.default.legal = true
    ∧ classify Params.default 74 = .bad ∧ classify Params.default 75 = .short ∧ classify Params.default 175 = .short
    ∧ classify Params.default 176 = .bad ∧ classify Params.default 199 = .bad ∧ classify Params.default 200 = .long
    ∧ classify Params.default 300 = .long ∧ classify Params.default 301 = .bad := by decide

theorem witness_EdgeInIdle : State.reset.rxState = .idle := by decide

/-- Each of the four clauses: the count at its last value before lock, and at the lock, with and without a frame. -/
theorem witness_EdgeInSync : (rx .sync 6#3 false false 0#3 0#16 false).rxState = .sync
    ∧ classify Params.default 301 ≠ .long ∧ classify Params.default 300 = .long
    ∧ (rx .sync 6#3 false false 0#3 0#16 false).syncN.toNat + 1 < 8
    ∧ (rx .sync 7#3 false false 0#3 0#16 true).syncN.toNat + 1 = 8
    ∧ (rx .sync 7#3 false false 0#3 0#16 true).complete = true
    ∧ (rx .sync 7#3 false false 0#3 0#16 false).complete = false := by decide

/-- Each of the five clauses: the classes at the bounds of the windows, a half pending and none. -/
theorem witness_EdgeInData : (rx .data 0#3 false true 3#3 11#16 false).rxState = .data
    ∧ classify Params.default 175 = .short ∧ classify Params.default 200 = .long ∧ classify Params.default 180 = .bad
    ∧ (rx .data 0#3 false true 3#3 11#16 false).pendingHalf = false
    ∧ (rx .data 0#3 true true 3#3 11#16 false).pendingHalf = true := by decide

/-- The last free bit, and a run of 6 (V2.8 row 6); a 1 and a 0. -/
theorem witness_EdgeStoresBit : (rx .data 0#3 true true 6#3 1023#16 false).rxState = .data
    ∧ Recovers (rx .data 0#3 true true 6#3 1023#16 false) (classify Params.default 125) true
    ∧ Recovers (rx .data 0#3 false true 6#3 1023#16 false) (classify Params.default 250) false
    ∧ (rx .data 0#3 true true 6#3 1023#16 false).run.toNat ≠ 7
    ∧ (rx .data 0#3 true true 6#3 1023#16 false).wrBits.toNat
      < 8 * (rx .data 0#3 true true 6#3 1023#16 false).params.bufBytes := by
  unfold Recovers
  decide

/-- V2.8 row 8: a stuffed bit with the store full. -/
theorem witness_EdgeDiscardsStuffedBit : (rx .data 0#3 false true 7#3 1024#16 false).rxState = .data
    ∧ Recovers (rx .data 0#3 false true 7#3 1024#16 false) (classify Params.default 250) false
    ∧ (rx .data 0#3 false true 7#3 1024#16 false).run.toNat = 7 := by
  unfold Recovers
  decide

/-- V2.8 rows 2 and 4: the terminator with a cursor of 7, and with the store full. -/
theorem witness_EdgeCompletesFrame : (rx .data 0#3 true true 7#3 7#16 false).rxState = .data
    ∧ Recovers (rx .data 0#3 true true 7#3 7#16 false) (classify Params.default 125) true
    ∧ (rx .data 0#3 true true 7#3 7#16 false).run.toNat = 7
    ∧ 7 ≤ (rx .data 0#3 true true 7#3 7#16 false).wrBits.toNat
    ∧ Recovers (rx .data 0#3 false false 7#3 1024#16 false) (classify Params.default 250) true := by
  unfold Recovers
  decide

/-- V2.8 row 5. -/
theorem witness_EdgeDesyncsWhenFull : (rx .data 0#3 true true 6#3 1024#16 false).rxState = .data
    ∧ Recovers (rx .data 0#3 true true 6#3 1024#16 false) (classify Params.default 125) true
    ∧ (rx .data 0#3 true true 6#3 1024#16 false).run.toNat ≠ 7
    ∧ (rx .data 0#3 true true 6#3 1024#16 false).wrBits.toNat
      = 8 * (rx .data 0#3 true true 6#3 1024#16 false).params.bufBytes := by
  unfold Recovers
  decide

theorem witness_OverflowRule : State.reset.params.legal = true ∧ State.reset.rxState = .idle
    ∧ (rx .sync 3#3 false false 0#3 0#16 false).params.legal = true
    ∧ (rx .sync 3#3 false false 0#3 0#16 false).rxState = .sync
    ∧ (rx .data 0#3 false true 3#3 11#16 false).params.legal = true
    ∧ (rx .data 0#3 false true 3#3 11#16 false).rxState = .data := by decide

theorem witness_EdgeCompletesWithItsFrame : (rx .data 0#3 true true 6#3 1023#16 false).rxState = .data
    ∧ (rx .data 0#3 true true 6#3 1023#16 false).wrBits.toNat
      ≤ 8 * (rx .data 0#3 true true 6#3 1023#16 false).params.bufBytes
    ∧ edgeStoresAt 125#16 (rx .data 0#3 true true 6#3 1023#16 false) = some 1023 := by decide

/-- A desync of another cause, and one of cause Capacity. -/
theorem witness_DesyncWritesOnlyTheState :
    (∃ t e, exec (.edge false 74#16) (rx .data 0#3 true true 3#3 11#16 false) = .next t ∧ t.history = [e]
      ∧ e.outcome = .desync .dataBadInterval [])
    ∧ ∃ t e, exec (.edge true 125#16) (rx .data 0#3 true true 6#3 1024#16 false) = .next t ∧ t.history = [e]
      ∧ e.outcome = .desync .capacity [] := ⟨⟨_, _, rfl, rfl, rfl⟩, ⟨_, _, rfl, rfl, rfl⟩⟩

theorem witness_TakeRule : State.reset.complete = false ∧ completed.complete = true
    ∧ min (completed.wrBits.toNat / 8) (65535#16 : BitVec 16).toNat ≤ completed.params.bufBytes := by decide

/-- The state of a completed frame meets the invariants. -/
theorem completed_inv : LinkInv completed where
  legal := by decide
  syncCount := by decide
  cursor := by decide
  runInFrame := by decide
  runIsOnes := fun h => absurd h (by decide)
  completeWaits := by decide
  sending := fun h => absurd h (by decide)
  written := fun _ => by unfold WrittenBelow; decide
  frameForm := by decide
  txForm := by decide

/-- A frame in reception, with two 1s at the cursor, while a frame of one byte is sent. -/
def busyBoth : State :=
  { rx .data 0#3 true true 2#3 3#16 false with
    frame := [(0, false), (1, true), (2, true)], txActive := true, txLen := 1#16, txH := 47#21, txMem := [(0, 0x80#8)] }

/-- That state meets the invariants too: in it no antecedent of theirs is empty but that of the sync count. -/
theorem busyBoth_inv : LinkInv busyBoth where
  legal := by decide
  syncCount := by decide
  cursor := by decide
  runInFrame := by decide
  runIsOnes := fun _ => by unfold OnesBeforeCursor; decide
  completeWaits := by decide
  sending := fun _ => ⟨[0x80#8], by decide, by decide⟩
  written := fun _ => by unfold WrittenBelow; decide
  frameForm := by decide
  txForm := by decide

/-- A state just after lock, with bits of an earlier frame in the store. -/
def justLocked : State := { rx .data 7#3 false false 0#3 0#16 false with frame := [(0, true), (1, false)] }

theorem justLocked_inv : LinkInv justLocked where
  legal := by decide
  syncCount := by decide
  cursor := by decide
  runInFrame := by decide
  runIsOnes := fun _ => by unfold OnesBeforeCursor; decide
  completeWaits := by decide
  sending := fun h => absurd h (by decide)
  written := fun _ => by unfold WrittenBelow; decide
  frameForm := by decide
  txForm := by decide

/-- A completed frame of one byte; and a state just after lock with operations that complete from it. -/
theorem witness_TakeReturnsWrittenBits : (LinkInv completed ∧ completed.complete = true
      ∧ 8 * min (completed.wrBits.toNat / 8) (1#16 : BitVec 16).toNat = 8)
    ∧ LinkInv justLocked ∧ justLocked.complete = false ∧ justLocked.rxState = .data ∧ justLocked.wrBits = 0#16
    ∧ ∃ t, execAll [.edge true 250#16, .overflow, .take 4#16] justLocked = .next t :=
  ⟨⟨completed_inv, by decide, by decide⟩, justLocked_inv, rfl, rfl, rfl, _, rfl⟩

theorem witness_OnlyTakeReadsFrameStore : (∀ len, Instr.edge true 125#16 ≠ .take len)
    ∧ ∃ t, exec (.edge true 125#16) busyBoth = .next t := ⟨by simp, _, rfl⟩

/-- The three faults, each one past the array's end. -/
theorem witness_OutsideAnArrayFaults : (sending 129#16 0#21).txActive = true
    ∧ (sending 129#16 0#21).params.txBufBytes < (sending 129#16 0#21).txLen.toNat
    ∧ (rx .data 0#3 true true 6#3 1025#16 false).rxState = .data
    ∧ Recovers (rx .data 0#3 true true 6#3 1025#16 false) (classify Params.default 125) true
    ∧ (rx .data 0#3 true true 6#3 1025#16 false).run.toNat ≠ 7
    ∧ 8 * (rx .data 0#3 true true 6#3 1025#16 false).params.bufBytes
      < (rx .data 0#3 true true 6#3 1025#16 false).wrBits.toNat
    ∧ (rx .idle 0#3 true true 6#3 1032#16 true).complete = true
    ∧ (rx .idle 0#3 true true 6#3 1032#16 true).params.bufBytes
      < min ((rx .idle 0#3 true true 6#3 1032#16 true).wrBits.toNat / 8) (129#16 : BitVec 16).toNat := by
  unfold Recovers
  decide

theorem witness_TransmitOpsLeaveReceiver : txSide .tick = true ∧ txSide (.txWrite 0#16 1#8) = true
    ∧ txSide (.txStart 0#16) = true ∧ (∃ t, exec .tick busyBoth = .next t)
    ∧ (∃ t, exec (.txWrite 0#16 1#8) completed = .next t)
    ∧ ∃ t, exec (.txStart 0#16) completed = .next t := ⟨rfl, rfl, rfl, ⟨_, rfl⟩, ⟨_, rfl⟩, ⟨_, rfl⟩⟩

theorem witness_ReceiveOpsLeaveTransmitter : rxSide (.edge true 125#16) = true ∧ rxSide .overflow = true
    ∧ rxSide (.take 4#16) = true ∧ (∃ t, exec (.edge true 125#16) busyBoth = .next t)
    ∧ (∃ t, exec .overflow busyBoth = .next t) ∧ ∃ t, exec (.take 4#16) completed = .next t :=
  ⟨rfl, rfl, rfl, ⟨_, rfl⟩, ⟨_, rfl⟩, ⟨_, rfl⟩⟩

/-- Two states that agree on one side and differ on the other. -/
theorem witness_SidesDoNotReadEachOther :
    (SameTransmitterRegs State.reset completed ∧ completed.txMem = State.reset.txMem
      ∧ completed.draws = State.reset.draws ∧ completed.params = State.reset.params
      ∧ ∃ t, exec (.txStart 0#16) State.reset = .next t)
    ∧ SameReceiverRegs State.reset (sending 0#16 0#21) ∧ (sending 0#16 0#21).frame = State.reset.frame
      ∧ (sending 0#16 0#21).draws = State.reset.draws ∧ (sending 0#16 0#21).params = State.reset.params
      ∧ ∃ t, exec (.edge true 0#16) State.reset = .next t :=
  ⟨⟨⟨rfl, rfl, rfl, rfl, rfl⟩, rfl, rfl, rfl, _, rfl⟩, ⟨rfl, rfl, rfl, rfl, rfl, rfl, rfl⟩, rfl, rfl, rfl, _, rfl⟩

theorem witness_TickCommutesWithSampler : (∃ t, exec .tick busyBoth = .next t)
    ∧ (∃ u, exec (.edge true 125#16) busyBoth = .next u) ∧ ∃ u, exec .overflow busyBoth = .next u :=
  ⟨⟨_, rfl⟩, ⟨_, rfl⟩, ⟨_, rfl⟩⟩

theorem witness_EveryInterleavingAgrees :
    Interleaves [Instr.tick, .tick] [.edge true 125#16] [.tick, .edge true 125#16, .tick]
    ∧ (∀ i ∈ [Instr.tick, .tick], txSide i = true) ∧ (∀ i ∈ [Instr.edge true 125#16], rxSide i = true)
    ∧ (∃ u, execAll [.tick, .tick] busyBoth = .next u) ∧ ∃ v, execAll [.edge true 125#16] busyBoth = .next v :=
  ⟨.left _ (.right _ (.left _ .nil)), by decide, by decide, ⟨_, rfl⟩, ⟨_, rfl⟩⟩

/-- A step that completes a frame, and the two that clear the flag. -/
theorem witness_OnlyTerminatorCompletes :
    (rx .data 0#3 true true 7#3 55#16 false).params.legal = true
    ∧ (∃ t, exec (.edge true 125#16) (rx .data 0#3 true true 7#3 55#16 false) = .next t ∧ t.complete = true)
    ∧ (∃ t, exec (.take 4#16) completed = .next t ∧ t.complete = false)
    ∧ ∃ t, exec .reset completed = .next t ∧ t.complete = false :=
  ⟨by decide, ⟨_, rfl, rfl⟩, ⟨_, rfl, rfl⟩, ⟨_, rfl, rfl⟩⟩

/-- A TICK that changes the line and ends a frame, and a TX_START that begins one. -/
theorem witness_LineAndBusyWriters :
    (∃ t, exec .tick (sending 1#16 47#21) = .next t ∧ t.lineOut ≠ (sending 1#16 47#21).lineOut ∧ t.txActive = false)
    ∧ ∃ t, exec (.txStart 128#16) State.reset = .next t ∧ t.txActive = true :=
  ⟨⟨_, rfl, by decide, by decide⟩, ⟨_, rfl, rfl⟩⟩

theorem witness_CompleteFrameIsLeftAlone : LinkInv completed ∧ completed.complete = true
    ∧ (∃ t, exec (.edge true 250#16) completed = .next t) ∧ (∃ t, exec .overflow completed = .next t)
    ∧ LinkInv busyBoth ∧ busyBoth.complete = false :=
  ⟨completed_inv, rfl, ⟨_, rfl⟩, ⟨_, rfl⟩, busyBoth_inv, rfl⟩

theorem witness_DecoderIsNeverStuck : LinkInv busyBoth := busyBoth_inv

/-- The invariants do not read the port. -/
theorem inv_withPort {s : State} (ws : List Word) (h : LinkInv s) : LinkInv (s.withPort ws) :=
  ⟨h.legal, h.syncCount, h.cursor, h.runInFrame, h.runIsOnes, h.completeWaits, h.sending, h.written, h.frameForm,
    h.txForm⟩

theorem witness_StepKeepsInvariants : LinkInv (busyBoth.withPort [0x2001007D#32])
    ∧ ∃ t, step (busyBoth.withPort [0x2001007D#32]) = .next t := ⟨inv_withPort _ busyBoth_inv, _, rfl⟩

theorem witness_InvariantStatesNeverStop : LinkInv (busyBoth.withPort [0x2001007D#32]) := inv_withPort _ busyBoth_inv

/-- A reached state in SYNC. -/
theorem witness_ReachableStatesSatisfyTheInvariants : Params.default.legal = true
    ∧ ∃ t, Host.Core.run Sys2Proof.core 1
        { State.reset with params := Params.default, port := [0x2001FFFF#32] } = .next t ∧ t.rxState = .sync :=
  ⟨by decide, _, rfl, rfl⟩

/-- Seven long intervals and six, with and without a frame; an interval just past the long window. -/
theorem witness_LockNeedsSevenLongIntervals : State.reset.rxState = .idle ∧ completed.rxState = .idle
    ∧ (List.replicate 7 (true, 250#16)).length = 7 ∧ (List.replicate 6 (true, 250#16)).length < 7
    ∧ (∀ e ∈ List.replicate 7 (true, (250#16 : BitVec 16)), classify State.reset.params e.2.toNat = .long)
    ∧ (∀ e ∈ List.replicate 6 (true, (250#16 : BitVec 16)), classify State.reset.params e.2.toNat = .long)
    ∧ classify State.reset.params (301#16 : BitVec 16).toNat ≠ .long
    ∧ State.reset.complete = false ∧ completed.complete = true :=
  ⟨rfl, rfl, rfl, by decide, fun e he => by rw [List.eq_of_mem_replicate he]; decide,
    fun e he => by rw [List.eq_of_mem_replicate he]; decide, by decide, rfl, rfl⟩

/-- The largest payload that fits, whose trailing 1s are 7; and the empty payload. -/
theorem witness_FrameIsDelivered : (small 2 0).params.legal = true ∧ (small 2 0).params.timed = true
    ∧ (small 2 0).rxState = .idle ∧ (small 2 0).complete = false ∧ [0x7F#8].length + 1 ≤ (small 2 0).params.bufBytes
    ∧ trailingOnes (payloadBits [0x7F#8]) % 7 = 0 ∧ trailingOnes (payloadBits []) % 7 = 0 := by decide

/-- Trailing 1s of length 6 and of length 8, the two ends of the remainder. -/
theorem witness_FrameIsTruncated : (small 2 0).params.legal = true ∧ (small 2 0).params.timed = true
    ∧ (small 2 0).rxState = .idle ∧ (small 2 0).complete = false ∧ [0xFF#8].length + 1 ≤ (small 2 0).params.bufBytes
    ∧ 0 < trailingOnes (payloadBits [0xFF#8]) % 7 ∧ trailingOnes (payloadBits [0x3F#8]) % 7 = 6 := by decide

/-- A payload as long as the store, and one byte longer. -/
theorem witness_FrameAtCapacityIsDropped : (small 1 0).params.legal = true ∧ (small 1 0).params.timed = true
    ∧ (small 1 0).rxState = .idle ∧ (small 1 0).complete = false
    ∧ (small 1 0).params.bufBytes ≤ [0xFE#8].length ∧ [0xFE#8].length = (small 1 0).params.bufBytes
    ∧ (small 1 0).params.bufBytes ≤ [0xFE#8, 0xFE#8].length := by decide

theorem witness_PayloadRoundTrip : (small 2 0).params.legal = true ∧ (small 2 0).params.timed = true
    ∧ (small 2 0).rxState = .idle ∧ (small 2 0).complete = false ∧ 1 ≤ [0x7F#8].length
    ∧ [0x7F#8].length ≤ (small 2 0).params.bufBytes - 1 ∧ trailingOnes (payloadBits [0x7F#8]) % 7 = 0 := by decide

end Sys2Proof.Tests
end

section
/-! PROOF. Scope (spec/00_scope.md). What an applied operation leaves and records; that no operation is refused once it
is decoded; and that each side of the block (spec/20_memory.md R234) runs the same whatever the other side holds. -/

namespace Sys2Proof.Proofs

open Sys2Proof Sys2Proof.Config Sys2Proof.Machine Sys2Proof.Safety Sys2Proof.Laws

variable {s t u v : State} {i : Instr} {o : OpOutcome} {r : Option Response}

/-! ### Legal parameters and refusals (spec/00_scope.md R10) -/

theorem legal_iff (p : Params) : p.legal = true ↔
    (0 < p.shortMin ∧ p.shortMin ≤ p.shortMax ∧ p.shortMax < p.longMin ∧ p.longMin ≤ p.longMax
      ∧ p.longMax < p.intervalMax ∧ p.intervalMax ≤ 65535)
    ∧ (1 ≤ p.bufBytes ∧ p.bufBytes ≤ 8191) ∧ p.txBufBytes ≤ 65535 := by
  simp [Params.legal, and_assoc]

@[simp] theorem conclude_ne_refused (o : OpOutcome) (r : Option Response) (s : State) (q : Refusal) :
    conclude o r s ≠ .refused q := nofun

@[simp] theorem concludeRx_ne_refused (x : RxResult) (q : Refusal) : concludeRx x ≠ .refused q := by
  cases x <;> nofun

/-- Every operation has a meaning: exec completes or faults. -/
theorem exec_ne_refused (i : Instr) (s : State) (q : Refusal) : exec i s ≠ .refused q := by
  cases i with
  | tick =>
    simp only [exec, execTick]
    split
    · split <;> simp
    · simp
  | edge dir iv => exact concludeRx_ne_refused _ q
  | overflow => exact concludeRx_ne_refused _ q
  | txWrite idx data =>
    simp only [exec, execTxWrite]
    split
    · simp
    · split <;> simp
  | txStart len =>
    simp only [exec, execTxStart]
    split
    · simp
    · split <;> simp
  | take len =>
    simp only [exec, execTake]
    split
    · split <;> simp
    · simp
  | reset => exact conclude_ne_refused _ _ _ q

theorem applyWord_ne_refused (w : Word) (s : State) (q : Refusal) : applyWord w s ≠ .refused q := by
  unfold applyWord
  split
  · exact exec_ne_refused _ s q
  · exact conclude_ne_refused _ _ _ q

/-- A step is refused for its parameters, and for nothing else. -/
theorem step_refused_iff (s : State) : step s = .refused .illegalParameters ↔ ¬ s.params.legal = true := by
  unfold step
  split
  · split <;> simp [*, applyWord_ne_refused]
  · simp [*]

/-- Settles O9: exec refuses nothing, so only the test of the parameters does. -/
theorem illegalParametersRefused : Obligations.IllegalParametersRefused := fun s =>
  (step_refused_iff s).trans (not_congr (legal_iff s.params))

/-! ### Each operation on each of its branches

The converses of `tick_cases`, `txWrite_cases`, `txStart_cases` and `take_cases`. -/

theorem tick_idle (ha : s.txActive = false) : exec .tick s = .next (s.setPulse.record (.ok []) none) := by
  simp [exec, execTick, ha]

theorem tick_sending {p : List Byte} (ha : s.txActive = true) (hp : payload? s = some p) :
    exec .tick s = .next ((sendLevel (txLevels p) s).record (.ok []) none) := by
  simp [exec, execTick, ha, hp]

theorem txWrite_busy {idx : BitVec 16} {data : Byte} (ha : s.txActive = true) :
    exec (.txWrite idx data) s = .next (s.record (.ignore .txBusy) none) := by
  simp [exec, execTxWrite, ha]

theorem txWrite_outside {idx : BitVec 16} {data : Byte} (ha : s.txActive = false)
    (hi : s.params.txBufBytes ≤ idx.toNat) :
    exec (.txWrite idx data) s = .next (s.record (.ignore .txIndex) none) := by
  simp [exec, execTxWrite, ha, hi]

theorem txWrite_inside {idx : BitVec 16} {data : Byte} (ha : s.txActive = false)
    (hi : idx.toNat < s.params.txBufBytes) :
    exec (.txWrite idx data) s = .next ((s.writeTx idx.toNat data).record (.ok []) none) := by
  simp [exec, execTxWrite, ha, Nat.not_le.2 hi]

theorem txStart_busy {len : BitVec 16} (ha : s.txActive = true) :
    exec (.txStart len) s = .next (s.record (.ignore .txBusy) none) := by
  simp [exec, execTxStart, ha]

theorem txStart_tooLong {len : BitVec 16} (ha : s.txActive = false) (hl : s.params.txBufBytes < len.toNat) :
    exec (.txStart len) s = .next (s.record (.ignore .txLength) none) := by
  simp [exec, execTxStart, ha, hl]

theorem txStart_fits {len : BitVec 16} (ha : s.txActive = false) (hl : len.toNat ≤ s.params.txBufBytes) :
    exec (.txStart len) s = .next ((s.startFrame len).record (.ok []) none) := by
  simp [exec, execTxStart, ha, Nat.not_lt.2 hl]

theorem take_noFrame {len : BitVec 16} (hc : s.complete = false) :
    exec (.take len) s = .next (s.record (.ok []) (some emptyResponse)) := by
  simp [exec, execTake, hc]

theorem take_frame {len : BitVec 16} (hc : s.complete = true) (hb : takeCount len s ≤ s.params.bufBytes) :
    exec (.take len) s = .next (s.releaseFrame.record (.ok [])
      (some (responseOf ((List.range (takeCount len s)).map (frameByte s))))) := by
  simp [exec, execTake, hc, frameBytes?_some hb]

/-! ### What an applied operation keeps and records (spec/00_scope.md R16) -/

/-- The parameters, the words still presented and the earlier history are as before. -/
structure KeepsOutside (s u : State) : Prop where
  params  : u.params = s.params
  port    : u.port = s.port
  history : u.history = s.history

/-- A decoder rule keeps what is outside the block and the draws, and its outcome is no refusal. -/
def DecoderRule (f : State → RxResult) : Prop :=
  ∀ {s u : State} {o : OpOutcome}, f s = .ok (u, o) →
    KeepsOutside s u ∧ u.draws = s.draws ∧ ∀ q, o ≠ .refuse q

theorem writeBit_decoderRule (v : Bool) : DecoderRule (writeBit v) := by
  intro s u o h
  obtain ⟨-, -, rfl, rfl⟩ | ⟨-, -, rfl, rfl⟩ | ⟨-, -, rfl, rfl⟩ | ⟨-, -, rfl, rfl⟩ := writeBit_cases h
  all_goals exact ⟨⟨rfl, rfl, rfl⟩, rfl, nofun⟩

theorem rxIdle_decoderRule (dir : Bool) : DecoderRule (rxIdle dir) := by
  intro s u o h
  obtain ⟨-, rfl, rfl⟩ | ⟨-, rfl, rfl⟩ := rxIdle_cases h
  all_goals exact ⟨⟨rfl, rfl, rfl⟩, rfl, nofun⟩

theorem rxSync_decoderRule (c : IntervalClass) : DecoderRule (rxSync c) := by
  intro s u o h
  obtain ⟨-, rfl, rfl⟩ | ⟨-, -, rfl, rfl⟩ | ⟨-, -, -, rfl, rfl⟩ | ⟨-, -, -, rfl, rfl⟩ := rxSync_cases h
  all_goals exact ⟨⟨rfl, rfl, rfl⟩, rfl, nofun⟩

theorem rxData_decoderRule (c : IntervalClass) : DecoderRule (rxData c) := by
  intro s u o h
  obtain ⟨-, -, rfl, rfl⟩ | ⟨-, -, rfl, rfl⟩ | ⟨-, rfl, rfl⟩ | ⟨v, -, hw⟩ := rxData_cases h
  case inr.inr.inr =>
    obtain ⟨⟨hp, hq, hh⟩, hd, ho⟩ := writeBit_decoderRule v hw
    exact ⟨⟨hp, hq, hh⟩, hd, ho⟩
  all_goals exact ⟨⟨rfl, rfl, rfl⟩, rfl, nofun⟩

theorem labelOverflow_ne_refuse (ho : ∀ q, o ≠ .refuse q) (q : RefuseReason) : labelOverflow o ≠ .refuse q := by
  cases o with
  | refuse q' => exact absurd rfl (ho q')
  | _ => nofun

/-- Only TAKE has a result, and its count is the number of its bytes (spec/30_encoding.md R340). -/
def ResultFits : Instr → Option Response → Prop
  | .take _, r => ∃ x, r = some x ∧ x.count.toNat = x.data.length
  | _,       r => r = none

theorem ResultFits.isSome_iff (h : ResultFits i r) : r.isSome = true ↔ ∃ len, i = .take len := by
  cases i with
  | take len =>
    obtain ⟨x, rfl, -⟩ := h
    simp
  | _ =>
    cases h
    simp

theorem ResultFits.count_eq (h : ResultFits i r) (x : Response) (hx : r = some x) : x.count.toNat = x.data.length := by
  cases i with
  | take len =>
    obtain ⟨y, rfl, hy⟩ := h
    exact Option.some.inj hx ▸ hy
  | _ => simp_all [ResultFits]

/-- The cursor's 16 bits bound what TAKE returns (spec/42_frame_store.md R601). -/
theorem takeCount_lt (len : BitVec 16) (s : State) : takeCount len s < 2 ^ 16 :=
  (Nat.min_le_right _ _).trans_lt len.isLt

/-- The count of a response is the number of its bytes when that fits the field. -/
theorem responseOf_count {data : List Byte} (h : data.length < 2 ^ 16) :
    (responseOf data).count.toNat = (responseOf data).data.length := Nat.mod_eq_of_lt h

/-- What `i` leaves before its event is recorded, with the outcome and the result it records. -/
structure Applied (i : Instr) (s u : State) (o : OpOutcome) (r : Option Response) : Prop where
  outside   : KeepsOutside s u
  draws     : i ≠ .reset → u.draws = s.draws
  noRefusal : ∀ q, o ≠ .refuse q
  result    : ResultFits i r

/-- An operation that completes applies its rule and then records one event. -/
theorem exec_applied (h : exec i s = .next t) : ∃ u o r, t = u.record o r ∧ Applied i s u o r := by
  cases i with
  | tick =>
    obtain ⟨-, rfl⟩ | ⟨ha, p, -, rfl⟩ := tick_cases h
    · exact ⟨_, _, _, rfl, ⟨rfl, rfl, rfl⟩, fun _ => rfl, nofun, rfl⟩
    · exact ⟨_, _, _, rfl, by rw [sendLevel_eq ha]; exact ⟨⟨rfl, rfl, rfl⟩, fun _ => rfl, nofun, rfl⟩⟩
  | edge dir iv =>
    obtain ⟨u, o, rfl, hx⟩ := edge_cases h
    have hk : KeepsOutside s u ∧ u.draws = s.draws ∧ ∀ q, o ≠ .refuse q := by
      obtain ⟨-, hx⟩ | ⟨-, hx⟩ | ⟨-, hx⟩ := hx
      · exact rxIdle_decoderRule _ hx
      · exact rxSync_decoderRule _ hx
      · exact rxData_decoderRule _ hx
    obtain ⟨hout, hd, ho⟩ := hk
    exact ⟨u, o, none, rfl, hout, fun _ => hd, ho, rfl⟩
  | overflow =>
    obtain ⟨u, o, rfl, hx⟩ := overflow_cases h
    have hk : KeepsOutside s u ∧ u.draws = s.draws ∧ ∀ q, o ≠ .refuse q := by
      obtain ⟨-, rfl, rfl⟩ | ⟨-, hx⟩ | ⟨-, hx⟩ := hx
      · exact ⟨⟨rfl, rfl, rfl⟩, rfl, nofun⟩
      · exact rxSync_decoderRule _ hx
      · exact rxData_decoderRule _ hx
    obtain ⟨hout, hd, ho⟩ := hk
    exact ⟨u, _, none, rfl, hout, fun _ => hd, labelOverflow_ne_refuse ho, rfl⟩
  | txWrite idx data =>
    obtain ⟨-, rfl⟩ | ⟨-, -, rfl⟩ | ⟨-, -, rfl⟩ := txWrite_cases h
    all_goals exact ⟨_, _, _, rfl, ⟨rfl, rfl, rfl⟩, fun _ => rfl, nofun, rfl⟩
  | txStart len =>
    obtain ⟨-, rfl⟩ | ⟨-, -, rfl⟩ | ⟨-, -, rfl⟩ := txStart_cases h
    all_goals exact ⟨_, _, _, rfl, ⟨rfl, rfl, rfl⟩, fun _ => rfl, nofun, rfl⟩
  | take len =>
    obtain ⟨-, rfl⟩ | ⟨-, -, rfl⟩ := take_cases h
    · exact ⟨_, _, _, rfl, ⟨rfl, rfl, rfl⟩, fun _ => rfl, nofun, _, rfl, rfl⟩
    · exact ⟨_, _, _, rfl, ⟨rfl, rfl, rfl⟩, fun _ => rfl, nofun, _, rfl,
        responseOf_count (by simpa using takeCount_lt len s)⟩
  | reset =>
    cases h
    exact ⟨_, _, _, rfl, ⟨rfl, rfl, rfl⟩, fun hi => absurd rfl hi, nofun, rfl⟩

theorem exec_params (h : exec i s = .next t) : t.params = s.params := by
  obtain ⟨u, o, r, rfl, happ⟩ := exec_applied h
  exact happ.outside.params

theorem exec_draws (hi : i ≠ .reset) (h : exec i s = .next t) : t.draws = s.draws := by
  obtain ⟨u, o, r, rfl, happ⟩ := exec_applied h
  exact happ.draws hi

/-- The status vector bit by bit (spec/10_state.md R147). -/
theorem status_bits (s : State) :
    (status s).getLsbD 0 = s.txActive ∧ (status s).getLsbD 1 = s.complete ∧ (status s).getLsbD 2 = s.lineOut := by
  have bits : ∀ l c a : Bool, (BitVec.ofBool l ++ BitVec.ofBool c ++ BitVec.ofBool a).getLsbD 0 = a
      ∧ (BitVec.ofBool l ++ BitVec.ofBool c ++ BitVec.ofBool a).getLsbD 1 = c
      ∧ (BitVec.ofBool l ++ BitVec.ofBool c ++ BitVec.ofBool a).getLsbD 2 = l := by decide
  exact bits s.lineOut s.complete s.txActive

/-- Recording an event changes no status output. -/
@[simp] theorem status_record (o : OpOutcome) (r : Option Response) (s : State) : status (s.record o r) = status s := rfl

/-- Settles O11: the event recorded last is the one that `exec_applied` describes. -/
theorem oneOutcomeAndOnlyTakeReturns : Obligations.OneOutcomeAndOnlyTakeReturns := by
  refine ⟨status_bits, fun i s t h => ?_⟩
  obtain ⟨u, o, r, rfl, happ⟩ := exec_applied h
  exact ⟨⟨o, r, status u⟩, by simp [happ.outside.history], (status_record o r u).symm, happ.noRefusal,
    happ.result.isSome_iff, happ.result.count_eq⟩

/-! ### The two sides of the block (spec/20_memory.md R234)

A state with the other side, the port and the history of any state `a` put in: an operation of one side does the same
there, and carries `a`'s part along. Agreement on a side and the frame of the other side both follow from this. -/

/-- `s` with the receiver's side, the port and the history of `a`. -/
def withRxSide (a s : State) : State :=
  { a with
    txActive := s.txActive, txLen := s.txLen, txH := s.txH, lineOut := s.lineOut, pulseReady := s.pulseReady,
    txMem := s.txMem, params := s.params, draws := s.draws }

/-- `s` with the transmitter's side, the port and the history of `a`. -/
def withTxSide (a s : State) : State :=
  { a with
    rxState := s.rxState, syncN := s.syncN, pendingHalf := s.pendingHalf, lastBit := s.lastBit, run := s.run,
    wrBits := s.wrBits, complete := s.complete, frame := s.frame, params := s.params, draws := s.draws }

/-- Everything that the transmitter's operations read is the same. -/
structure SameTxSide (s t : State) : Prop where
  regs   : SameTransmitterRegs s t
  txMem  : t.txMem = s.txMem
  draws  : t.draws = s.draws
  params : t.params = s.params

/-- Everything that the receiver's operations read is the same. -/
structure SameRxSide (s t : State) : Prop where
  regs   : SameReceiverRegs s t
  frame  : t.frame = s.frame
  draws  : t.draws = s.draws
  params : t.params = s.params

theorem SameTxSide.refl (s : State) : SameTxSide s s := ⟨⟨rfl, rfl, rfl, rfl, rfl⟩, rfl, rfl, rfl⟩

theorem SameRxSide.refl (s : State) : SameRxSide s s := ⟨⟨rfl, rfl, rfl, rfl, rfl, rfl, rfl⟩, rfl, rfl, rfl⟩

theorem SameTxSide.trans (h : SameTxSide s t) (h' : SameTxSide t u) : SameTxSide s u := by
  obtain ⟨⟨h1, h2, h3, h4, h5⟩, hm, hd, hp⟩ := h
  obtain ⟨⟨k1, k2, k3, k4, k5⟩, km, kd, kp⟩ := h'
  exact ⟨⟨k1.trans h1, k2.trans h2, k3.trans h3, k4.trans h4, k5.trans h5⟩, km.trans hm, kd.trans hd, kp.trans hp⟩

theorem SameRxSide.trans (h : SameRxSide s t) (h' : SameRxSide t u) : SameRxSide s u := by
  obtain ⟨⟨h1, h2, h3, h4, h5, h6, h7⟩, hf, hd, hp⟩ := h
  obtain ⟨⟨k1, k2, k3, k4, k5, k6, k7⟩, kf, kd, kp⟩ := h'
  exact ⟨⟨k1.trans h1, k2.trans h2, k3.trans h3, k4.trans h4, k5.trans h5, k6.trans h6, k7.trans h7⟩, kf.trans hf,
    kd.trans hd, kp.trans hp⟩

/-- A state that agrees with `s` on the transmitter's side is `s` with its own receiver's side put in. -/
theorem SameTxSide.withRxSide_eq (h : SameTxSide s t) : withRxSide t s = t := by
  obtain ⟨⟨h1, h2, h3, h4, h5⟩, hm, hd, hp⟩ := h
  simp [withRxSide, ← h1, ← h2, ← h3, ← h4, ← h5, ← hm, ← hd, ← hp]

/-- A state that agrees with `s` on the receiver's side is `s` with its own transmitter's side put in. -/
theorem SameRxSide.withTxSide_eq (h : SameRxSide s t) : withTxSide t s = t := by
  obtain ⟨⟨h1, h2, h3, h4, h5, h6, h7⟩, hf, hd, hp⟩ := h
  simp [withTxSide, ← h1, ← h2, ← h3, ← h4, ← h5, ← h6, ← h7, ← hf, ← hd, ← hp]

/-! ### The transmitter's operations whatever the receiver holds -/

theorem sendLevel_withRxSide (a : State) (lv : List Bool) (ha : s.txActive = true) :
    sendLevel lv (withRxSide a s) = withRxSide a (sendLevel lv s) := by
  rw [sendLevel_eq ha, sendLevel_eq (show (withRxSide a s).txActive = true from ha)]
  rfl

/-- An operation of the transmitter's side does the same, with the same outcome, whatever the receiver's side holds. -/
theorem exec_withRxSide (hi : txSide i = true) (h : exec i s = .next t) (a : State) :
    ∃ u o r, t = u.record o r ∧ exec i (withRxSide a s) = .next ((withRxSide a u).record o r) := by
  cases i with
  | tick =>
    obtain ⟨ha, rfl⟩ | ⟨ha, p, hp, rfl⟩ := tick_cases h
    · exact ⟨_, _, _, rfl, tick_idle (s := withRxSide a s) ha⟩
    · exact ⟨_, _, _, rfl, sendLevel_withRxSide a _ ha ▸ tick_sending (s := withRxSide a s) ha hp⟩
  | txWrite idx data =>
    obtain ⟨ha, rfl⟩ | ⟨ha, hx, rfl⟩ | ⟨ha, hx, rfl⟩ := txWrite_cases h
    · exact ⟨_, _, _, rfl, txWrite_busy (s := withRxSide a s) ha⟩
    · exact ⟨_, _, _, rfl, txWrite_outside (s := withRxSide a s) ha hx⟩
    · exact ⟨_, _, _, rfl, txWrite_inside (s := withRxSide a s) ha hx⟩
  | txStart len =>
    obtain ⟨ha, rfl⟩ | ⟨ha, hl, rfl⟩ | ⟨ha, hl, rfl⟩ := txStart_cases h
    · exact ⟨_, _, _, rfl, txStart_busy (s := withRxSide a s) ha⟩
    · exact ⟨_, _, _, rfl, txStart_tooLong (s := withRxSide a s) ha hl⟩
    · exact ⟨_, _, _, rfl, txStart_fits (s := withRxSide a s) ha hl⟩
  | edge | overflow | take | reset => simp [txSide] at hi

/-! ### The receiver's operations whatever the transmitter holds -/

/-- A decoder rule that does the same, with the same outcome, whatever the transmitter's side holds. -/
def IgnoresTxSide (f : State → RxResult) : Prop :=
  ∀ (a : State) {s u : State} {o : OpOutcome}, f s = .ok (u, o) → f (withTxSide a s) = .ok (withTxSide a u, o)

theorem writeBit_ignoresTxSide (v : Bool) : IgnoresTxSide (writeBit v) := by
  intro a s u o h
  obtain ⟨hr, rfl, rfl, rfl⟩ | ⟨hr, rfl, rfl, rfl⟩ | ⟨hr, hw, rfl, rfl⟩ | ⟨hr, hw, rfl, rfl⟩ := writeBit_cases h
  · exact writeBit_terminator (s := withTxSide a s) hr
  · exact writeBit_stuffed (s := withTxSide a s) hr
  · exact writeBit_full (s := withTxSide a s) v hr hw
  · exact writeBit_store (s := withTxSide a s) v hr hw

theorem rxIdle_ignoresTxSide (dir : Bool) : IgnoresTxSide (rxIdle dir) := by
  intro a s u o h
  obtain ⟨rfl, rfl, rfl⟩ | ⟨rfl, rfl, rfl⟩ := rxIdle_cases h <;> rfl

theorem rxSync_ignoresTxSide (c : IntervalClass) : IgnoresTxSide (rxSync c) := by
  intro a s u o h
  obtain ⟨hc, rfl, rfl⟩ | ⟨rfl, hn, rfl, rfl⟩ | ⟨rfl, hn, hf, rfl, rfl⟩ | ⟨rfl, hn, hf, rfl, rfl⟩ := rxSync_cases h
  · cases c with
    | long => exact absurd rfl hc
    | short | bad => rfl
  · exact rxSync_count (s := withTxSide a s) hn
  · exact rxSync_refuse (s := withTxSide a s) hn hf
  · exact rxSync_lock (s := withTxSide a s) hn hf

theorem rxData_ignoresTxSide (c : IntervalClass) : IgnoresTxSide (rxData c) := by
  intro a s u o h
  obtain ⟨rfl, hp, rfl, rfl⟩ | ⟨rfl, hp, rfl, rfl⟩ | ⟨rfl, rfl, rfl⟩ | ⟨v, hv, hw⟩ := rxData_cases h
  · exact if_neg (show ¬ s.pendingHalf = true by simp [hp])
  · exact if_pos hp
  · rfl
  · exact (rxData_recovers (s := withTxSide a s) hv).trans (writeBit_ignoresTxSide v a hw)

theorem rxEdge_ignoresTxSide (dir : Bool) (iv : Nat) : IgnoresTxSide (rxEdge dir iv) := by
  intro a s u o h
  have hr : (withTxSide a s).rxState = s.rxState := rfl
  unfold rxEdge at h ⊢
  rw [hr]
  cases hs : s.rxState <;> simp only [hs] at h ⊢
  · exact rxIdle_ignoresTxSide dir a h
  · exact rxSync_ignoresTxSide _ a h
  · exact rxData_ignoresTxSide _ a h

theorem rxOverflow_ignoresTxSide : IgnoresTxSide rxOverflow := by
  intro a s u o h
  have hr : (withTxSide a s).rxState = s.rxState := rfl
  unfold rxOverflow at h ⊢
  rw [hr]
  cases hs : s.rxState <;> simp only [hs] at h ⊢
  · cases h; rfl
  · exact rxSync_ignoresTxSide _ a h
  · exact rxData_ignoresTxSide _ a h

/-- An operation of the receiver's side does the same, with the same outcome and result, whatever the transmitter's side
holds. -/
theorem exec_withTxSide (hi : rxSide i = true) (h : exec i s = .next t) (a : State) :
    ∃ u o r, t = u.record o r ∧ exec i (withTxSide a s) = .next ((withTxSide a u).record o r) := by
  cases i with
  | edge dir iv =>
    obtain ⟨u, o, hx, rfl⟩ := concludeRx_next (x := rxEdge dir iv.toNat s) h
    exact ⟨u, o, none, rfl, congrArg concludeRx (rxEdge_ignoresTxSide dir iv.toNat a hx)⟩
  | overflow =>
    obtain ⟨u, o, hx, rfl⟩ := concludeRx_next (x := asOverflow (rxOverflow s)) h
    obtain ⟨o', hy, rfl⟩ := asOverflow_ok hx
    exact ⟨u, _, none, rfl, congrArg (concludeRx ∘ asOverflow) (rxOverflow_ignoresTxSide a hy)⟩
  | take len =>
    obtain ⟨hc, rfl⟩ | ⟨hc, hb, rfl⟩ := take_cases h
    · exact ⟨_, _, _, rfl, take_noFrame (s := withTxSide a s) hc⟩
    · exact ⟨_, _, _, rfl, take_frame (s := withTxSide a s) hc hb⟩
  | tick | txWrite | txStart | reset => simp [rxSide] at hi

/-! ### Interleavings (spec/00_scope.md R8, spec/60_exceptions.md R722) -/

theorem ne_reset_of_txSide (hi : txSide i = true) : i ≠ .reset := by
  rintro rfl
  simp [txSide] at hi

theorem ne_reset_of_rxSide (hi : rxSide i = true) : i ≠ .reset := by
  rintro rfl
  simp [rxSide] at hi

/-- An operation of the transmitter's side acts alike on states that agree on that side, and leaves the receiver's. -/
theorem exec_sameTxSide {s' : State} (hi : txSide i = true) (hs : SameTxSide s s') (h : exec i s = .next t) :
    ∃ t', exec i s' = .next t' ∧ SameTxSide t t' ∧ SameRxSide s' t' := by
  have hd := exec_draws (ne_reset_of_txSide hi) h
  have hp := exec_params h
  obtain ⟨u, o, r, rfl, hx⟩ := exec_withRxSide hi h s'
  rw [hs.withRxSide_eq] at hx
  exact ⟨_, hx, ⟨⟨rfl, rfl, rfl, rfl, rfl⟩, rfl, rfl, rfl⟩,
    ⟨rfl, rfl, rfl, rfl, rfl, rfl, rfl⟩, rfl, hd.trans hs.draws.symm, hp.trans hs.params.symm⟩

/-- An operation of the receiver's side acts alike on states that agree on that side, and leaves the transmitter's. -/
theorem exec_sameRxSide {s' : State} (hi : rxSide i = true) (hs : SameRxSide s s') (h : exec i s = .next t) :
    ∃ t', exec i s' = .next t' ∧ SameRxSide t t' ∧ SameTxSide s' t' := by
  have hd := exec_draws (ne_reset_of_rxSide hi) h
  have hp := exec_params h
  obtain ⟨u, o, r, rfl, hx⟩ := exec_withTxSide hi h s'
  rw [hs.withTxSide_eq] at hx
  exact ⟨_, hx, ⟨⟨rfl, rfl, rfl, rfl, rfl, rfl, rfl⟩, rfl, rfl, rfl⟩,
    ⟨rfl, rfl, rfl, rfl, rfl⟩, rfl, hd.trans hs.draws.symm, hp.trans hs.params.symm⟩

theorem execAll_cons_next {is : List Instr} :
    execAll (i :: is) s = .next t ↔ ∃ m, exec i s = .next m ∧ execAll is m = .next t := by
  simp only [execAll]
  cases exec i s <;> simp

/-- A merge run from `s` follows the transmitter's list run from any state that agrees with `s` on the transmitter's side,
and the receiver's list run from any state that agrees with `s` on the receiver's. -/
theorem execAll_interleaves {as bs cs : List Instr} (h : Interleaves as bs cs) (has : ∀ i ∈ as, txSide i = true)
    (hbs : ∀ i ∈ bs, rxSide i = true) {sa sb : State} (ha : SameTxSide sa s) (hb : SameRxSide sb s)
    (hu : execAll as sa = .next u) (hv : execAll bs sb = .next v) :
    ∃ t, execAll cs s = .next t ∧ SameTxSide u t ∧ SameRxSide v t ∧ t.draws = s.draws ∧ t.params = s.params := by
  induction h generalizing sa sb s with
  | nil =>
    cases hu
    cases hv
    exact ⟨s, rfl, ha, hb, rfl, rfl⟩
  | left i _ ih =>
    obtain ⟨hi, has⟩ := List.forall_mem_cons.1 has
    obtain ⟨ma, hma, hu⟩ := execAll_cons_next.1 hu
    obtain ⟨m, hm, hma', hkeep⟩ := exec_sameTxSide hi ha hma
    obtain ⟨t, ht, htx, hrx, hd, hp⟩ := ih has hbs hma' (hb.trans hkeep) hu hv
    exact ⟨t, execAll_cons_next.2 ⟨m, hm, ht⟩, htx, hrx, hd.trans hkeep.draws, hp.trans hkeep.params⟩
  | right i _ ih =>
    obtain ⟨hi, hbs⟩ := List.forall_mem_cons.1 hbs
    obtain ⟨mb, hmb, hv⟩ := execAll_cons_next.1 hv
    obtain ⟨m, hm, hmb', hkeep⟩ := exec_sameRxSide hi hb hmb
    obtain ⟨t, ht, htx, hrx, hd, hp⟩ := ih has hbs (ha.trans hkeep) hmb' hu hv
    exact ⟨t, execAll_cons_next.2 ⟨m, hm, ht⟩, htx, hrx, hd.trans hkeep.draws, hp.trans hkeep.params⟩

/-- Settles O47, by induction on the merge: each step is one of its own list's, and leaves the other side. -/
theorem everyInterleavingAgrees : Obligations.EveryInterleavingAgrees := by
  intro as bs cs s u v has hbs h hu hv
  obtain ⟨t, ht, htx, hrx, hd, hp⟩ := execAll_interleaves h has hbs (.refl s) (.refl s) hu hv
  exact ⟨t, ht, htx.regs, htx.txMem, hrx.regs, hrx.frame, hd, hp⟩

end Sys2Proof.Proofs
end

section
/-! PROOF. State (spec/10_state.md). The invariants of R150 hold at reset and every step keeps them: the decoder's part is
kept by the decoder's rules, the transmitter's part by TICK, TX_WRITE and TX_START, and each side's operations leave the
other side alone. Who writes `complete`, `line_out` and `tx_active`. What is left to do in the states that R150 rules
out. -/

namespace Sys2Proof.Proofs

open Sys2Proof Sys2Proof.Config Sys2Proof.Machine Sys2Proof.Safety Sys2Proof.Laws

variable {s t u : State} {i : Instr} {o : OpOutcome} {v : Bool} {c : IntervalClass}

/-! ### The step and the sides -/

/-- What a step can do: nothing is presented, a word's operation is applied, or a word is refused. -/
theorem step_cases (h : step s = .next t) :
    (s.port = [] ∧ t = s)
    ∨ ∃ w rest, s.port = w :: rest
      ∧ ((∃ i, decode w = .op i ∧ exec i (s.withPort rest) = .next t)
        ∨ ∃ q, decode w = .refuse q ∧ t = (s.withPort rest).record (.refuse q) none) := by
  unfold step at h
  split at h
  · unfold nextWord? at h
    cases hp : s.port with
    | nil =>
      simp only [hp] at h
      cases h
      exact .inl ⟨rfl, rfl⟩
    | cons w rest =>
      simp only [hp, applyWord] at h
      refine .inr ⟨w, rest, rfl, ?_⟩
      cases hd : decode w <;> simp only [hd] at h
      · exact .inl ⟨_, rfl, h⟩
      · exact .inr ⟨_, rfl, ((conclude_next ..).1 h).symm⟩
  · cases h

/-- Every operation but RESET belongs to one side (spec/20_memory.md R234). -/
theorem side_cases (i : Instr) : txSide i = true ∨ rxSide i = true ∨ i = .reset := by
  cases i <;> simp [txSide, rxSide]

/-- The transmitter's operations leave the receiver's side. -/
theorem exec_keeps_rxSide (hi : txSide i = true) (h : exec i s = .next t) : SameRxSide s t := by
  obtain ⟨t', ht, -, hkeep⟩ := exec_sameTxSide hi (.refl s) h
  rw [h] at ht
  cases ht
  exact hkeep

/-- The receiver's operations leave the transmitter's side. -/
theorem exec_keeps_txSide (hi : rxSide i = true) (h : exec i s = .next t) : SameTxSide s t := by
  obtain ⟨t', ht, -, hkeep⟩ := exec_sameRxSide hi (.refl s) h
  rw [h] at ht
  cases ht
  exact hkeep

/-! ### The two parts of the invariants (spec/10_state.md R150) -/

/-- The clauses of `LinkInv` about the receiver. -/
structure RxInv (s : State) : Prop where
  syncCount     : s.rxState = .sync → 1 ≤ s.syncN.toNat ∧ s.syncN.toNat ≤ 7
  cursor        : s.wrBits.toNat ≤ frameBits s
  runInFrame    : s.rxState = .data → s.run.toNat ≤ s.wrBits.toNat
  runIsOnes     : s.rxState = .data → OnesBeforeCursor s s.run.toNat
  completeWaits : s.complete = true → s.rxState ≠ .data
  written       : s.rxState = .data ∨ s.complete = true → WrittenBelow s s.wrBits.toNat
  frameForm     : Memory.wf s.frame = true ∧ Memory.below (frameBits s) s.frame = true

/-- The clauses of `LinkInv` about the transmitter. -/
structure TxInv (s : State) : Prop where
  sending : s.txActive = true → TxInBounds s
  txForm  : Memory.wf s.txMem = true ∧ Memory.below s.params.txBufBytes s.txMem = true

theorem linkInv_iff : LinkInv s ↔ s.params.legal = true ∧ RxInv s ∧ TxInv s :=
  ⟨fun h => ⟨h.legal, { h with }, { h with }⟩, fun ⟨hl, hr, ht⟩ => { hr, ht with legal := hl }⟩

/-- The receiver's part reads the receiver's side alone. -/
theorem RxInv.congr (h : RxInv s) (hs : SameRxSide s t) : RxInv t :=
  hs.withTxSide_eq ▸ (show RxInv (withTxSide t s) from { h with })

/-- The transmitter's part reads the transmitter's side alone. -/
theorem TxInv.congr (h : TxInv s) (hs : SameTxSide s t) : TxInv t :=
  hs.withRxSide_eq ▸ (show TxInv (withRxSide t s) from { h with })

theorem linkInv_withPort (h : LinkInv s) (ws : List Word) : LinkInv (s.withPort ws) := { h with }

theorem linkInv_record (h : LinkInv s) (o : OpOutcome) (r : Option Response) : LinkInv (s.record o r) := { h with }

/-- The state at reset meets the invariants, with any legal parameters, any words presented, any number of RESETs before
it and any history (spec/10_state.md R148). -/
theorem linkInv_initial {p : Params} (hp : p.legal = true) (d : Nat) (ws : List Word) (es : List Event) :
    LinkInv { State.reset with params := p, draws := d, port := ws, history := es } where
  legal         := hp
  syncCount     := nofun
  cursor        := Nat.zero_le _
  runInFrame    := nofun
  runIsOnes     := nofun
  completeWaits := nofun
  sending       := nofun
  written       := by rintro (h | h) <;> cases h
  frameForm     := ⟨rfl, rfl⟩
  txForm        := ⟨rfl, rfl⟩

/-- Settles O52: the default parameters are legal. -/
theorem invariantsHoldAtReset : Obligations.InvariantsHoldAtReset :=
  linkInv_initial (p := Params.default) (by decide) 0 [] []

/-! ### The decoder's rules keep the receiver's part -/

/-- A desync keeps every clause: outside DATA only `syncCount` and the clauses of a completed frame say anything. -/
theorem RxInv.toIdle (h : RxInv s) : RxInv s.toIdle where
  syncCount     := nofun
  cursor        := h.cursor
  runInFrame    := nofun
  runIsOnes     := nofun
  completeWaits := nofun
  written       := fun hw => h.written (.inr (hw.resolve_left nofun))
  frameForm     := h.frameForm

theorem RxInv.startSync (h : RxInv s) : RxInv s.startSync where
  syncCount     := fun _ => by simp
  cursor        := h.cursor
  runInFrame    := nofun
  runIsOnes     := nofun
  completeWaits := nofun
  written       := fun hw => h.written (.inr (hw.resolve_left nofun))
  frameForm     := h.frameForm

/-- One more preamble edge before the 8th keeps the count within its three bits. -/
theorem RxInv.countSync (h : RxInv s) (hn : s.syncN.toNat + 1 < 8) : RxInv s.countSync :=
  { h with
    syncCount := fun _ => by
      rw [countSync_syncN, BitVec.toNat_add_of_lt (by simpa using hn)]
      simp
      omega }

/-- At lock no bit is stored, so every clause about stored bits is empty. -/
theorem RxInv.acquireLock (h : RxInv s) (hc : s.complete = false) : RxInv s.acquireLock where
  syncCount     := nofun
  cursor        := Nat.zero_le _
  runInFrame    := fun _ => Nat.le_refl 0
  runIsOnes     := fun _ _ hk => absurd hk (Nat.not_lt_zero _)
  completeWaits := fun hc' => by simp [hc] at hc'
  written       := fun _ _ hi => absurd hi (Nat.not_lt_zero _)
  frameForm     := h.frameForm

theorem RxInv.setPending (h : RxInv s) (v : Bool) : RxInv (s.setPending v) := { h with }

theorem RxInv.afterRecovery (h : RxInv s) (v : Bool) : RxInv (afterRecovery v s) := { h with }

theorem RxInv.dropStuffed (h : RxInv s) : RxInv s.dropStuffed :=
  { h with
    runInFrame := fun _ => Nat.zero_le _
    runIsOnes  := fun _ _ hk => absurd hk (Nat.not_lt_zero _) }

/-- The terminator retracts seven bits that were stored, so the cursor stays among the written bits. -/
theorem RxInv.finishFrame (h : RxInv s) (hd : s.rxState = .data) (hr : s.run.toNat = 7) : RxInv s.finishFrame := by
  have h7 : 7 ≤ s.wrBits.toNat := hr ▸ h.runInFrame hd
  have hw : s.finishFrame.wrBits.toNat = s.wrBits.toNat - 7 := BitVec.toNat_sub_of_le (y := 7#16) h7
  have hle : s.finishFrame.wrBits.toNat ≤ s.wrBits.toNat := by omega
  exact {
    syncCount     := nofun
    cursor        := hle.trans h.cursor
    runInFrame    := nofun
    runIsOnes     := nofun
    completeWaits := nofun
    written       := fun _ i hi => h.written (.inl hd) i (hi.trans_le hle)
    frameForm     := h.frameForm }

/-! A stored bit. The cursor is inside the store, so advancing it does not wrap. -/

/-- A legal store has fewer bits than the cursor can count. -/
theorem frameBits_lt (hl : s.params.legal = true) : frameBits s < 2 ^ 16 := by
  obtain ⟨-, ⟨-, hb⟩, -⟩ := (legal_iff _).1 hl
  simp only [frameBits]
  omega

theorem storeBit_wrBits_toNat (hl : s.params.legal = true) (hw : s.wrBits.toNat < frameBits s) (v : Bool) :
    (s.storeBit v).wrBits.toNat = s.wrBits.toNat + 1 :=
  BitVec.toNat_add_of_lt (y := 1#16) (by have := frameBits_lt hl; simp; omega)

theorem storeBit_run_toNat (hr : s.run.toNat ≠ 7) (v : Bool) :
    (s.storeBit v).run.toNat = if v then s.run.toNat + 1 else 0 := by
  cases v with
  | false => rfl
  | true => exact BitVec.toNat_add_of_lt (y := 1#3) (by have := s.run.isLt; simp; omega)

/-- A stored bit is written, so the written bits reach one further. -/
theorem writtenBelow_succ_storeBit (h : WrittenBelow s s.wrBits.toNat) (v : Bool) :
    WrittenBelow (s.storeBit v) (s.wrBits.toNat + 1) := fun i hi => by
  rw [storeBit_frame, read_write]
  split
  · exact ⟨v, rfl⟩
  · exact h i (by omega)

/-- The run counts one more 1 before the cursor, or starts again at 0 (spec/41_receive.md R544). -/
theorem onesBeforeCursor_storeBit (h : OnesBeforeCursor s s.run.toNat) (hle : s.run.toNat ≤ s.wrBits.toNat)
    (hr : s.run.toNat ≠ 7) (hw : (s.storeBit v).wrBits.toNat = s.wrBits.toNat + 1) :
    OnesBeforeCursor (s.storeBit v) (s.storeBit v).run.toNat := by
  intro k hk
  rw [storeBit_run_toNat hr] at hk ⊢
  cases v with
  | false => exact absurd hk (Nat.not_lt_zero k)
  | true =>
    have hindex : s.wrBits.toNat + 1 - (s.run.toNat + 1) + k = s.wrBits.toNat - s.run.toNat + k := by omega
    simp only [if_true] at hk ⊢
    rw [hw, hindex, storeBit_frame, read_write]
    split
    · rfl
    · exact h k (by omega)

theorem RxInv.storeBit (h : RxInv s) (hl : s.params.legal = true) (hd : s.rxState = .data) (hr : s.run.toNat ≠ 7)
    (hw : s.wrBits.toNat < frameBits s) (v : Bool) : RxInv (s.storeBit v) := by
  have hcursor := storeBit_wrBits_toNat hl hw v
  have hle := h.runInFrame hd
  exact {
    syncCount     := h.syncCount
    cursor        := hcursor ▸ hw
    runInFrame    := fun _ => by rw [hcursor, storeBit_run_toNat hr]; split <;> omega
    runIsOnes     := fun _ => onesBeforeCursor_storeBit (h.runIsOnes hd) hle hr hcursor
    completeWaits := h.completeWaits
    written       := fun _ => hcursor ▸ writtenBelow_succ_storeBit (h.written (.inl hd)) v
    frameForm     := ⟨write_wf _ _ h.frameForm.1, write_below hw _ h.frameForm.2⟩ }

theorem RxInv.writeBit (h : RxInv s) (hl : s.params.legal = true) (hd : s.rxState = .data)
    (hx : writeBit v s = .ok (u, o)) : RxInv u := by
  obtain ⟨hr, -, rfl, -⟩ | ⟨-, -, rfl, -⟩ | ⟨-, -, rfl, -⟩ | ⟨hr, hw, rfl, -⟩ := writeBit_cases hx
  · exact h.finishFrame hd hr
  · exact h.dropStuffed
  · exact h.toIdle
  · exact h.storeBit hl hd hr hw v

theorem RxInv.rxIdle {dir : Bool} (h : RxInv s) (hx : rxIdle dir s = .ok (u, o)) : RxInv u := by
  obtain ⟨-, rfl, -⟩ | ⟨-, rfl, -⟩ := rxIdle_cases hx
  · exact h.startSync
  · exact h

theorem RxInv.rxSync (h : RxInv s) (hx : rxSync c s = .ok (u, o)) : RxInv u := by
  obtain ⟨-, rfl, -⟩ | ⟨-, hn, rfl, -⟩ | ⟨-, -, -, rfl, -⟩ | ⟨-, -, hc, rfl, -⟩ := rxSync_cases hx
  · exact h.toIdle
  · exact h.countSync hn
  · exact h.toIdle
  · exact h.acquireLock hc

theorem RxInv.rxData (h : RxInv s) (hl : s.params.legal = true) (hd : s.rxState = .data)
    (hx : rxData c s = .ok (u, o)) : RxInv u := by
  obtain ⟨-, -, rfl, -⟩ | ⟨-, -, rfl, -⟩ | ⟨-, rfl, -⟩ | ⟨v, -, hw⟩ := rxData_cases hx
  · exact h.setPending true
  · exact h.toIdle
  · exact h.toIdle
  · exact (h.afterRecovery v).writeBit hl hd hw

/-- TAKE releases a frame only outside DATA, so no clause about stored bits is left. -/
theorem RxInv.releaseFrame (h : RxInv s) (hc : s.complete = true) : RxInv s.releaseFrame :=
  { h with
    cursor        := Nat.zero_le _
    runInFrame    := fun hd => absurd hd (h.completeWaits hc)
    runIsOnes     := fun hd => absurd hd (h.completeWaits hc)
    completeWaits := nofun
    written       := fun _ _ hi => absurd hi (Nat.not_lt_zero _) }

theorem RxInv.record (h : RxInv s) (o : OpOutcome) (r : Option Response) : RxInv (s.record o r) := { h with }

/-- The receiver's operations keep the receiver's part. -/
theorem RxInv.exec (h : RxInv s) (hl : s.params.legal = true) (hi : rxSide i = true) (hx : exec i s = .next t) :
    RxInv t := by
  cases i with
  | edge dir iv =>
    obtain ⟨u, o, rfl, ⟨-, hx⟩ | ⟨-, hx⟩ | ⟨hd, hx⟩⟩ := edge_cases hx
    · exact (h.rxIdle hx).record _ _
    · exact (h.rxSync hx).record _ _
    · exact (h.rxData hl hd hx).record _ _
  | overflow =>
    obtain ⟨u, o, rfl, ⟨-, rfl, -⟩ | ⟨-, hx⟩ | ⟨hd, hx⟩⟩ := overflow_cases hx
    · exact h.record _ _
    · exact (h.rxSync hx).record _ _
    · exact (h.rxData hl hd hx).record _ _
  | take len =>
    obtain ⟨-, rfl⟩ | ⟨hc, -, rfl⟩ := take_cases hx
    · exact h.record _ _
    · exact (h.releaseFrame hc).record _ _
  | tick | txWrite | txStart | reset => simp [rxSide] at hi

/-! ### The transmitter's operations keep the transmitter's part -/

/-- A payload is in `TxMem` exactly when the length is, and it is the bytes below the length (spec/20_memory.md R202). -/
theorem payload?_eq_some_iff {p : List Byte} :
    payload? s = some p ↔ s.txLen.toNat ≤ s.params.txBufBytes ∧ p = (List.range s.txLen.toNat).map (txByte s) := by
  obtain hle | hlt := le_or_gt s.txLen.toNat s.params.txBufBytes
  · simp [payload?_some hle, hle, eq_comm]
  · simp [payload?_none hlt, hlt]

/-- The frame in flight, with its payload written out. -/
theorem txInBounds_iff : TxInBounds s ↔ s.txLen.toNat ≤ s.params.txBufBytes
    ∧ s.txH.toNat < (txLevels ((List.range s.txLen.toNat).map (txByte s))).length := by
  simp [TxInBounds, payload?_eq_some_iff, and_assoc]

/-- The levels of any payload that the length field can count are fewer than the position register can count. -/
theorem txLevels_length_lt {p : List Byte} (hp : p.length < 2 ^ 16) : (txLevels p).length < 2 ^ 21 := by
  have h := stuffFrom_length_le (run := 0) (by omega) (payloadBits p)
  rw [payloadBits_length] at h
  rw [txLevels_length, wireBits_length, stuff]
  omega

/-- Every frame has a first level: its preamble's. -/
theorem txLevels_length_pos (p : List Byte) : 0 < (txLevels p).length := by
  rw [txLevels_length, wireBits_length]
  omega

/-- While levels are left TICK advances by one of them, and it stays active only while one is left after that. -/
theorem txInBounds_sendLevel {p : List Byte} (ha : s.txActive = true) (hp : payload? s = some p)
    (hb : s.txH.toNat < (txLevels p).length) (hs : (sendLevel (txLevels p) s).txActive = true) :
    TxInBounds (sendLevel (txLevels p) s) := by
  have hlen : p.length < 2 ^ 16 := by
    obtain ⟨-, rfl⟩ := payload?_eq_some_iff.1 hp
    simpa using s.txLen.isLt
  have hmax := txLevels_length_lt hlen
  have hnext : (s.txH + 1#21).toNat = s.txH.toNat + 1 := BitVec.toNat_add_of_lt (y := 1#21) (by simp; omega)
  rw [sendLevel_eq ha] at hs ⊢
  have hne : (s.txH + 1#21).toNat ≠ (txLevels p).length := of_decide_eq_true hs
  exact ⟨p, hp, show (s.txH + 1#21).toNat < (txLevels p).length by omega⟩

theorem TxInv.record (h : TxInv s) (o : OpOutcome) (r : Option Response) : TxInv (s.record o r) := { h with }

theorem TxInv.setPulse (h : TxInv s) : TxInv s.setPulse := { h with }

theorem TxInv.sendLevel {p : List Byte} (h : TxInv s) (ha : s.txActive = true) (hp : payload? s = some p) :
    TxInv (sendLevel (txLevels p) s) where
  sending := by
    obtain ⟨q, hq, hb⟩ := h.sending ha
    rw [hp] at hq
    cases hq
    exact txInBounds_sendLevel ha hp hb
  txForm := by rw [sendLevel_eq ha]; exact h.txForm

theorem TxInv.writeTx {j : Nat} (h : TxInv s) (ha : s.txActive = false) (hj : j < s.params.txBufBytes) (b : Byte) :
    TxInv (s.writeTx j b) where
  sending := fun ha' => by simp [ha] at ha'
  txForm  := ⟨write_wf _ _ h.txForm.1, write_below hj _ h.txForm.2⟩

theorem TxInv.startFrame {len : BitVec 16} (h : TxInv s) (hl : len.toNat ≤ s.params.txBufBytes) :
    TxInv (s.startFrame len) where
  sending := fun _ => txInBounds_iff.2 ⟨hl, txLevels_length_pos _⟩
  txForm  := h.txForm

/-- The transmitter's operations keep the transmitter's part. -/
theorem TxInv.exec (h : TxInv s) (hi : txSide i = true) (hx : exec i s = .next t) : TxInv t := by
  cases i with
  | tick =>
    obtain ⟨-, rfl⟩ | ⟨ha, p, hp, rfl⟩ := tick_cases hx
    · exact h.setPulse.record _ _
    · exact (h.sendLevel ha hp).record _ _
  | txWrite idx data =>
    obtain ⟨-, rfl⟩ | ⟨-, -, rfl⟩ | ⟨ha, hj, rfl⟩ := txWrite_cases hx
    · exact h.record _ _
    · exact h.record _ _
    · exact (h.writeTx ha hj data).record _ _
  | txStart len =>
    obtain ⟨-, rfl⟩ | ⟨-, -, rfl⟩ | ⟨-, hl, rfl⟩ := txStart_cases hx
    · exact h.record _ _
    · exact h.record _ _
    · exact (h.startFrame hl).record _ _
  | edge | overflow | take | reset => simp [txSide] at hi

/-! ### Every step keeps the invariants -/

/-- Every operation keeps the invariants: its own side's by its rules, and the other side's because it leaves it. -/
theorem exec_keeps_linkInv (h : LinkInv s) (hx : exec i s = .next t) : LinkInv t := by
  obtain ⟨hl, hr, ht⟩ := linkInv_iff.1 h
  have hl' : t.params.legal = true := exec_params hx ▸ hl
  obtain hi | hi | rfl := side_cases i
  · exact linkInv_iff.2 ⟨hl', hr.congr (exec_keeps_rxSide hi hx), ht.exec hi hx⟩
  · exact linkInv_iff.2 ⟨hl', hr.exec hl hi hx, ht.congr (exec_keeps_txSide hi hx)⟩
  · cases (reset_next s).symm.trans hx
    exact linkInv_record (linkInv_initial hl _ _ _) _ _

theorem step_keeps_linkInv (h : LinkInv s) (hx : step s = .next t) : LinkInv t := by
  obtain ⟨-, rfl⟩ | ⟨w, rest, -, ⟨i, -, hx⟩ | ⟨q, -, rfl⟩⟩ := step_cases hx
  · exact h
  · exact exec_keeps_linkInv (linkInv_withPort h rest) hx
  · exact linkInv_record (linkInv_withPort h rest) _ _

/-- Settles O53: the parts of the invariants are kept side by side. -/
theorem stepKeepsInvariants : Obligations.StepKeepsInvariants := fun _ _ => step_keeps_linkInv

theorem run_keeps_linkInv {k : Nat} (h : LinkInv s) (hx : Host.Core.run core k s = .next t) : LinkInv t := by
  induction k generalizing s with
  | zero => cases hx; exact h
  | succ k ih =>
    simp only [Host.Core.run] at hx
    split at hx
    case h_1 m hm => exact ih (step_keeps_linkInv h hm) hx
    all_goals cases hx

/-- Item 5 of R150 read from the store: a written bit reads as written. -/
theorem frameBit_of_run (h : LinkInv s) (hd : s.rxState = .data) {k : Nat}
    (hlo : s.wrBits.toNat - s.run.toNat ≤ k) (hhi : k < s.wrBits.toNat) : frameBit s k = true := by
  have hle := h.runInFrame hd
  have hread := h.runIsOnes hd (k - (s.wrBits.toNat - s.run.toNat)) (by omega)
  rw [Nat.add_sub_cancel' hlo] at hread
  simp [frameBit, hread]

/-- Settles O55, by the invariants along the run; items 3 and 7 hold of every state. -/
theorem reachableStatesSatisfyTheInvariants : Obligations.ReachableStatesSatisfyTheInvariants := by
  intro p ws k t hp hx
  have h : LinkInv t := run_keeps_linkInv (linkInv_initial hp 0 ws []) hx
  refine ⟨?_, h.syncCount, Nat.le_of_lt_succ t.run.isLt, h.cursor, fun hd => ⟨h.runInFrame hd, ?_⟩, h.completeWaits,
    fun ha => ⟨_, tick_idle ha, rfl⟩, fun ha => txInBounds_iff.1 (h.sending ha)⟩
  · cases t.rxState <;> simp
  · exact fun _ => frameBit_of_run h hd

/-! ### Who writes `complete` (spec/10_state.md R131) -/

theorem writeBit_complete (hx : writeBit v s = .ok (u, o)) :
    u.complete = s.complete ∨ (u.complete = true ∧ s.run.toNat = 7 ∧ v = true) := by
  obtain ⟨hr, hv, rfl, -⟩ | ⟨-, -, rfl, -⟩ | ⟨-, -, rfl, -⟩ | ⟨-, -, rfl, -⟩ := writeBit_cases hx
  · exact .inr ⟨rfl, hr, hv⟩
  all_goals exact .inl rfl

theorem rxIdle_complete {dir : Bool} (hx : rxIdle dir s = .ok (u, o)) : u.complete = s.complete := by
  obtain ⟨-, rfl, -⟩ | ⟨-, rfl, -⟩ := rxIdle_cases hx <;> rfl

theorem rxSync_complete (hx : rxSync c s = .ok (u, o)) : u.complete = s.complete := by
  obtain ⟨-, rfl, -⟩ | ⟨-, -, rfl, -⟩ | ⟨-, -, -, rfl, -⟩ | ⟨-, -, -, rfl, -⟩ := rxSync_cases hx <;> rfl

theorem rxData_complete (hx : rxData c s = .ok (u, o)) :
    u.complete = s.complete ∨ (u.complete = true ∧ s.run.toNat = 7 ∧ Recovers s c true) := by
  obtain ⟨-, -, rfl, -⟩ | ⟨-, -, rfl, -⟩ | ⟨-, rfl, -⟩ | ⟨v, hv, hw⟩ := rxData_cases hx
  case inr.inr.inr =>
    obtain hc | ⟨hc, hr, rfl⟩ := writeBit_complete hw
    · exact .inl hc
    · exact .inr ⟨hc, hr, hv⟩
  all_goals exact .inl rfl

/-- An interval outside both windows recovers no bit. -/
theorem not_recovers_bad : ¬ Recovers s .bad v := by
  rintro (⟨h, -⟩ | ⟨h, -⟩) <;> cases h

/-- With legal parameters an OVERFLOW recovers no bit, so it completes no frame (spec/41_receive.md R501). -/
theorem overflow_complete (hl : s.params.legal = true) (hx : exec .overflow s = .next t) : t.complete = s.complete := by
  obtain ⟨u, o, rfl, ⟨-, rfl, -⟩ | ⟨-, hx⟩ | ⟨-, hx⟩⟩ := overflow_cases hx
  all_goals rw [record_complete]
  · exact rxSync_complete hx
  · rw [classify_overflow hl] at hx
    exact (rxData_complete hx).resolve_right fun ⟨_, _, hv⟩ => not_recovers_bad hv

/-- An EDGE keeps `complete`, or sets it as the terminator. -/
theorem edge_complete {dir : Bool} {iv : BitVec 16} (hx : exec (.edge dir iv) s = .next t) :
    t.complete = s.complete
    ∨ (t.complete = true ∧ s.rxState = .data ∧ s.run.toNat = 7 ∧ Recovers s (classify s.params iv.toNat) true) := by
  obtain ⟨u, o, rfl, ⟨-, hx⟩ | ⟨-, hx⟩ | ⟨hd, hx⟩⟩ := edge_cases hx
  all_goals rw [record_complete]
  · exact .inl (rxIdle_complete hx)
  · exact .inl (rxSync_complete hx)
  · exact (rxData_complete hx).imp_right fun ⟨hc, hr, hv⟩ => ⟨hc, hd, hr, hv⟩

/-- An operation keeps `complete`, or is an EDGE that sets it as the terminator, or a TAKE or RESET that clears it. -/
theorem exec_complete (hl : s.params.legal = true) (hx : exec i s = .next t) :
    t.complete = s.complete
    ∨ (t.complete = true ∧ ∃ dir iv, i = .edge dir iv ∧ s.rxState = .data ∧ s.run.toNat = 7
        ∧ Recovers s (classify s.params iv.toNat) true)
    ∨ (t.complete = false ∧ ((∃ len, i = .take len) ∨ i = .reset)) := by
  cases i with
  | tick | txWrite | txStart => exact .inl (exec_keeps_rxSide rfl hx).regs.complete
  | edge dir iv => exact (edge_complete hx).imp_right fun ⟨hc, he⟩ => .inl ⟨hc, dir, iv, rfl, he⟩
  | overflow => exact .inl (overflow_complete hl hx)
  | take len =>
    obtain ⟨-, rfl⟩ | ⟨-, -, rfl⟩ := take_cases hx
    · exact .inl rfl
    · exact .inr (.inr ⟨rfl, .inl ⟨len, rfl⟩⟩)
  | reset =>
    cases (reset_next s).symm.trans hx
    exact .inr (.inr ⟨rfl, .inr rfl⟩)

/-- Settles O48: of the three cases of `exec_complete` only the second sets `complete`, and only the third clears it. -/
theorem onlyTerminatorCompletes : Obligations.OnlyTerminatorCompletes := by
  refine ⟨rfl, fun i s t hl hx => ?_⟩
  obtain hc | ⟨hc, hedge⟩ | ⟨hc, hclear⟩ := exec_complete hl hx <;> rw [hc]
  · exact ⟨fun h h' => by simp [h] at h', fun h h' => by simp [h] at h'⟩
  · exact ⟨fun _ _ => hedge, nofun⟩
  · exact ⟨nofun, fun _ _ => hclear⟩

/-! ### Who writes `line_out` and `tx_active` (spec/10_state.md R140, R143) -/

/-- A TICK that sends a level drops `tx_active` or keeps it. -/
theorem sendLevel_txActive {lv : List Bool} (ha : s.txActive = true) :
    (sendLevel lv s).txActive = s.txActive ∨ (sendLevel lv s).txActive = false := by
  rw [ha]
  exact Bool.eq_false_or_eq_true _

/-- An operation keeps the line, or is a TICK that sends a level, or RESET. -/
theorem exec_lineOut (hx : exec i s = .next t) :
    t.lineOut = s.lineOut ∨ (i = .tick ∧ s.txActive = true) ∨ i = .reset := by
  cases i with
  | tick =>
    obtain ⟨-, rfl⟩ | ⟨ha, -⟩ := tick_cases hx
    · exact .inl rfl
    · exact .inr (.inl ⟨rfl, ha⟩)
  | txWrite idx data =>
    obtain ⟨-, rfl⟩ | ⟨-, -, rfl⟩ | ⟨-, -, rfl⟩ := txWrite_cases hx <;> exact .inl rfl
  | txStart len =>
    obtain ⟨-, rfl⟩ | ⟨-, -, rfl⟩ | ⟨-, -, rfl⟩ := txStart_cases hx <;> exact .inl rfl
  | edge | overflow | take => exact .inl (exec_keeps_txSide rfl hx).regs.lineOut
  | reset => exact .inr (.inr rfl)

/-- An operation keeps `tx_active`, or is a TX_START that sets it, or a TICK or RESET that clears it. -/
theorem exec_txActive (hx : exec i s = .next t) :
    t.txActive = s.txActive
    ∨ (t.txActive = true ∧ ∃ len, i = .txStart len)
    ∨ (t.txActive = false ∧ (i = .tick ∨ i = .reset)) := by
  cases i with
  | tick =>
    obtain ⟨-, rfl⟩ | ⟨ha, p, -, rfl⟩ := tick_cases hx
    · exact .inl rfl
    · exact (sendLevel_txActive ha).imp_right fun h => .inr ⟨h, .inl rfl⟩
  | txWrite idx data =>
    obtain ⟨-, rfl⟩ | ⟨-, -, rfl⟩ | ⟨-, -, rfl⟩ := txWrite_cases hx <;> exact .inl rfl
  | txStart len =>
    obtain ⟨-, rfl⟩ | ⟨-, -, rfl⟩ | ⟨-, -, rfl⟩ := txStart_cases hx
    · exact .inl rfl
    · exact .inl rfl
    · exact .inr (.inl ⟨rfl, len, rfl⟩)
  | edge | overflow | take => exact .inl (exec_keeps_txSide rfl hx).regs.txActive
  | reset =>
    cases (reset_next s).symm.trans hx
    exact .inr (.inr ⟨rfl, .inr rfl⟩)

/-- Settles O49: the cases of `exec_lineOut` and of `exec_txActive`, read by what changed. -/
theorem lineAndBusyWriters : Obligations.LineAndBusyWriters := by
  refine fun i s t hx => ⟨(exec_lineOut hx).resolve_left, ?_⟩
  obtain ha | ⟨ha, hstart⟩ | ⟨ha, hend⟩ := exec_txActive hx <;> rw [ha]
  · exact ⟨fun h h' => by simp [h] at h', fun h h' => by simp [h] at h'⟩
  · exact ⟨fun _ _ => hstart, nofun⟩
  · exact ⟨nofun, fun _ _ => hend⟩

/-! ### States that R150 rules out (log entries 8 and 9) -/

/-- Settles O14: `sendLevel_eq` says what TICK writes wherever the position stands. -/
theorem tickPastTheEndCompletes : Obligations.TickPastTheEndCompletes := by
  intro s ha hl _
  refine ⟨_, tick_sending ha (payload?_some hl), ?_⟩
  rw [sendLevel_eq ha]
  exact ⟨rfl, rfl, rfl, ⟨rfl, rfl, rfl, rfl, rfl, rfl, rfl⟩, rfl, rfl, rfl, rfl, rfl, _, rfl⟩

theorem tick_outside (ha : s.txActive = true) (hl : s.params.txBufBytes < s.txLen.toNat) :
    exec .tick s = .fault .txMemBounds := by
  simp [exec, execTick, ha, payload?_none hl]

theorem take_outside {len : BitVec 16} (hc : s.complete = true) (hb : s.params.bufBytes < takeCount len s) :
    exec (.take len) s = .fault .frameStoreBounds := by
  simp [exec, execTake, hc, frameBytes?_none hb]

/-- In DATA an EDGE is the DATA rule on the class of its interval (spec/41_receive.md R500). -/
theorem edge_data {dir : Bool} {iv : BitVec 16} (hd : s.rxState = .data) :
    exec (.edge dir iv) s = concludeRx (rxData (classify s.params iv.toNat) s) := by
  simp [exec, execEdge, rxEdge, hd]

/-- Settles O42: a payload, a cursor and a byte count past the end of their arrays. -/
theorem outsideAnArrayFaults : Obligations.OutsideAnArrayFaults := by
  refine ⟨fun s => tick_outside, fun s dir v iv hd hv hr hw => ?_, fun s len => take_outside⟩
  rw [edge_data hd, rxData_recovers hv, writeBit_outside (s := afterRecovery v s) v hr hw]
  rfl

end Sys2Proof.Proofs
end

section
/-! PROOF. Memory (spec/20_memory.md). The byte view of the frame store; the order of words at the port; the two sides of
the block and what each leaves of the other; what an operation does to the frame store, said once as a function of the
store's contents; and what TAKE can return. -/

namespace Sys2Proof.Proofs

open Sys2Proof Sys2Proof.Config Sys2Proof.Machine Sys2Proof.Safety Sys2Proof.Laws

variable {s t u : State} {i : Instr} {o : OpOutcome} {r : Option Response} {v : Bool} {c : IntervalClass}

/-! ### The port and the frame store's two views (spec/20_memory.md R210, R230) -/

/-- Settles O7: the word at the head of the port is the one that is decoded. -/
theorem stepAppliesDecodedOp : Obligations.StepAppliesDecodedOp := by
  intro s w rest i hl hp hd
  have hw : nextWord? s = some (w, s.withPort rest) := by simp [nextWord?, hp]
  simp only [step, hl, if_true, hw, applyWord, hd]
  rfl

/-- Bit `k` of byte `j`, counted from the most significant, is bit `8*j + k` of the store. -/
theorem getLsbD_frameByte (s : State) (j : Nat) {k : Nat} (hk : k < 8) :
    (frameByte s j).getLsbD (7 - k) = frameBit s (8 * j + k) := by
  have hbits : (List.range 8).map (fun k => (frameByte s j).getLsbD (7 - k))
      = (List.range 8).map (fun k => frameBit s (8 * j + k)) := byteBits_packByte ..
  exact List.map_inj_left.1 hbits k (List.mem_range.2 hk)

/-- Settles O38: bit index `i` is `8 * (i / 8) + i % 8`. -/
theorem frameByteLayout : Obligations.FrameByteLayout := by
  intro s i
  rw [getLsbD_frameByte s _ (Nat.mod_lt i (by decide)), Nat.div_add_mod]

/-! ### What each side leaves of the other (spec/20_memory.md R234) -/

/-- A recorded event hides nothing of the state it was recorded in. -/
theorem record_inj {o' : OpOutcome} {r' : Option Response} (h : s.record o r = t.record o' r') :
    s = t ∧ o = o' ∧ r = r' := by
  cases s
  cases t
  simp only [State.record, State.mk.injEq, List.cons.injEq, Event.mk.injEq] at h
  simp [h]

/-- An operation of the transmitter's side acts by one state `u` whatever the receiver's side holds, and leaves that. -/
theorem exec_txSide_uniform (hi : txSide i = true) (h : exec i s = .next t) :
    ∃ u o r, t = (withRxSide s u).record o r
      ∧ ∀ a, exec i (withRxSide a s) = .next ((withRxSide a u).record o r) := by
  obtain ⟨u, o, r, rfl, hs⟩ := exec_withRxSide hi h s
  refine ⟨u, o, r, Host.Outcome.next.inj (h.symm.trans hs), fun a => ?_⟩
  obtain ⟨u', o', r', hrec, ha⟩ := exec_withRxSide hi h a
  obtain ⟨rfl, rfl, rfl⟩ := record_inj hrec
  exact ha

/-- An operation of the receiver's side leaves the transmitter's, the port and the earlier history. -/
theorem exec_rxSide_eq (hi : rxSide i = true) (h : exec i s = .next t) :
    ∃ u o r, t = (withTxSide s u).record o r := by
  obtain ⟨u, o, r, -, hs⟩ := exec_withTxSide hi h s
  exact ⟨u, o, r, Host.Outcome.next.inj (h.symm.trans hs)⟩

/-- TICK, TX_WRITE and TX_START keep `tx_len` but for TX_START, and `TxMem` but for TX_WRITE. -/
theorem exec_txLen_txMem (hi : txSide i = true) (h : exec i s = .next t) :
    ((∀ len, i ≠ .txStart len) → t.txLen = s.txLen) ∧ ((∀ idx data, i ≠ .txWrite idx data) → t.txMem = s.txMem) := by
  cases i with
  | tick =>
    obtain ⟨-, rfl⟩ | ⟨ha, p, -, rfl⟩ := tick_cases h
    · exact ⟨fun _ => rfl, fun _ => rfl⟩
    · rw [sendLevel_eq ha]
      exact ⟨fun _ => rfl, fun _ => rfl⟩
  | txWrite idx data =>
    refine ⟨fun _ => ?_, fun hne => absurd rfl (hne idx data)⟩
    obtain ⟨-, rfl⟩ | ⟨-, -, rfl⟩ | ⟨-, -, rfl⟩ := txWrite_cases h <;> rfl
  | txStart len =>
    refine ⟨fun hne => absurd rfl (hne len), fun _ => ?_⟩
    obtain ⟨-, rfl⟩ | ⟨-, -, rfl⟩ | ⟨-, -, rfl⟩ := txStart_cases h <;> rfl
  | edge | overflow | take | reset => simp [txSide] at hi

/-- Settles O43: the next state is the old one with only the transmitter's side put in and one event recorded. -/
theorem transmitOpsLeaveReceiver : Obligations.TransmitOpsLeaveReceiver := by
  intro i s t hi h
  have hd : t.draws = s.draws := exec_draws (ne_reset_of_txSide hi) h
  have hp : t.params = s.params := exec_params h
  have hown := exec_txLen_txMem hi h
  obtain ⟨u, o, r, rfl, -⟩ := exec_txSide_uniform hi h
  exact ⟨⟨rfl, rfl, rfl, rfl, rfl, rfl, rfl⟩, rfl, ⟨frameBit_congr rfl hd, frameByte_congr rfl hd⟩, hd,
    ⟨hp, rfl, _, rfl⟩, hown⟩

/-- TAKE, the receiver's operation that is not the sampler's, writes no decoder register but `complete` and `wr_bits`
(spec/42_frame_store.md R601). -/
theorem take_keeps_decoder (hi : rxSide i = true) (hne : ∀ dir iv, i ≠ .edge dir iv) (hno : i ≠ .overflow)
    (h : exec i s = .next t) : t.frame = s.frame ∧ t.rxState = s.rxState ∧ t.syncN = s.syncN
      ∧ t.pendingHalf = s.pendingHalf ∧ t.lastBit = s.lastBit ∧ t.run = s.run := by
  cases i with
  | take len =>
    obtain ⟨-, rfl⟩ | ⟨-, -, rfl⟩ := take_cases h
    all_goals exact ⟨rfl, rfl, rfl, rfl, rfl, rfl⟩
  | edge dir iv => exact absurd rfl (hne dir iv)
  | overflow => exact absurd rfl hno
  | tick | txWrite | txStart | reset => simp [rxSide] at hi

/-- Settles O44: the next state is the old one with only the receiver's side put in and one event recorded. -/
theorem receiveOpsLeaveTransmitter : Obligations.ReceiveOpsLeaveTransmitter := by
  intro i s t hi h
  have hd : t.draws = s.draws := exec_draws (ne_reset_of_rxSide hi) h
  have hp : t.params = s.params := exec_params h
  have htake := fun hne hno => take_keeps_decoder hi hne hno h
  obtain ⟨u, o, r, rfl⟩ := exec_rxSide_eq hi h
  exact ⟨⟨rfl, rfl, rfl, rfl, rfl⟩, rfl, txByte_congr rfl hd, hd, ⟨hp, rfl, _, rfl⟩, htake⟩

/-- Settles O45: a state that agrees with `s` on a side is `s` with the rest of its own put in. -/
theorem sidesDoNotReadEachOther : Obligations.SidesDoNotReadEachOther := by
  refine ⟨fun i s s' t hi hr hm hd hp h => ?_, fun i s s' t hi hr hf hd hp h => ?_⟩
  · obtain ⟨t', ht', hsame, -⟩ := exec_sameTxSide hi ⟨hr, hm, hd, hp⟩ h
    exact ⟨t', ht', hsame.regs, hsame.txMem⟩
  · have hs : SameRxSide s s' := ⟨hr, hf, hd, hp⟩
    obtain ⟨u, o, r, rfl, hx⟩ := exec_withTxSide hi h s'
    rw [hs.withTxSide_eq] at hx
    exact ⟨_, hx, ⟨rfl, rfl, rfl, rfl, rfl, rfl, rfl⟩, rfl, rfl⟩

theorem SameTxSide.symm (h : SameTxSide s t) : SameTxSide t s := by
  obtain ⟨⟨h1, h2, h3, h4, h5⟩, hm, hd, hp⟩ := h
  exact ⟨⟨h1.symm, h2.symm, h3.symm, h4.symm, h5.symm⟩, hm.symm, hd.symm, hp.symm⟩

theorem SameRxSide.symm (h : SameRxSide s t) : SameRxSide t s := by
  obtain ⟨⟨h1, h2, h3, h4, h5, h6, h7⟩, hf, hd, hp⟩ := h
  exact ⟨⟨h1.symm, h2.symm, h3.symm, h4.symm, h5.symm, h6.symm, h7.symm⟩, hf.symm, hd.symm, hp.symm⟩

/-- The two sides are the block. -/
theorem sameBlock_of_sides (htx : SameTxSide s t) (hrx : SameRxSide s t) : SameBlock s t :=
  ⟨hrx.regs, hrx.frame, htx.regs, htx.txMem, htx.draws⟩

/-- An operation of each side, applied in either order, leaves the same block. -/
theorem exec_sides_commute {j : Instr} (hi : txSide i = true) (hj : rxSide j = true) (ht : exec i s = .next t)
    (hu : exec j s = .next u) : ∃ t' u', exec j t = .next t' ∧ exec i u = .next u' ∧ SameBlock t' u' := by
  obtain ⟨t', ht', hrx, htx⟩ := exec_sameRxSide hj (exec_keeps_rxSide hi ht) hu
  obtain ⟨u', hu', htx', hrx'⟩ := exec_sameTxSide hi (exec_keeps_txSide hj hu) ht
  exact ⟨t', u', ht', hu', sameBlock_of_sides (htx.symm.trans htx') (hrx.symm.trans hrx')⟩

/-- Settles O46: TICK is of the transmitter's side, EDGE and OVERFLOW of the receiver's. -/
theorem tickCommutesWithSampler : Obligations.TickCommutesWithSampler := by
  rintro i s t u (⟨dir, iv, rfl⟩ | rfl) ht hu
  all_goals exact exec_sides_commute rfl rfl ht hu

/-! ### A completed frame (spec/20_memory.md R233) -/

/-- The frame store, the cursor and `complete` are as before. -/
structure LeavesFrame (s u : State) : Prop where
  frame    : u.frame = s.frame
  wrBits   : u.wrBits = s.wrBits
  complete : u.complete = s.complete

theorem rxIdle_leavesFrame {dir : Bool} (hx : rxIdle dir s = .ok (u, o)) : LeavesFrame s u := by
  obtain ⟨-, rfl, -⟩ | ⟨-, rfl, -⟩ := rxIdle_cases hx
  all_goals exact ⟨rfl, rfl, rfl⟩

/-- The SYNC rule would write the cursor at lock, which a waiting frame refuses (spec/41_receive.md R521). -/
theorem rxSync_leavesFrame (hc : s.complete = true) (hx : rxSync c s = .ok (u, o)) : LeavesFrame s u := by
  obtain ⟨-, rfl, -⟩ | ⟨-, -, rfl, -⟩ | ⟨-, -, -, rfl, -⟩ | ⟨-, -, hf, -⟩ := rxSync_cases hx
  case inr.inr.inr => simp [hc] at hf
  all_goals exact ⟨rfl, rfl, rfl⟩

/-- Outside DATA the sampler's operations leave a completed frame alone. -/
theorem sampler_leavesFrame (hi : (∃ dir iv, i = .edge dir iv) ∨ i = .overflow) (hc : s.complete = true)
    (hd : s.rxState ≠ .data) (h : exec i s = .next t) : LeavesFrame s t := by
  obtain ⟨dir, iv, rfl⟩ | rfl := hi
  · obtain ⟨u, o, rfl, ⟨-, hx⟩ | ⟨-, hx⟩ | ⟨hdata, -⟩⟩ := edge_cases h
    · exact { rxIdle_leavesFrame hx with }
    · exact { rxSync_leavesFrame hc hx with }
    · exact absurd hdata hd
  · obtain ⟨u, o, rfl, ⟨-, rfl, -⟩ | ⟨-, hx⟩ | ⟨hdata, -⟩⟩ := overflow_cases h
    · exact ⟨rfl, rfl, rfl⟩
    · exact { rxSync_leavesFrame hc hx with }
    · exact absurd hdata hd

/-- Settles O50: a frame awaits TAKE only outside DATA (spec/10_state.md R150 item 6). -/
theorem completeFrameIsLeftAlone : Obligations.CompleteFrameIsLeftAlone := by
  refine fun s hinv => ⟨fun hc i t hi h => ?_, fun hc len f => take_noFrame (s := { s with frame := f }) hc⟩
  obtain ⟨hf, hw, hc'⟩ := sampler_leavesFrame hi hc (hinv.completeWaits hc) h
  exact ⟨hf, hw, hc'.trans hc⟩

/-! ### What an operation does to the frame store (spec/20_memory.md R211 to R213)

Every operation but TAKE acts on the store by a function `φ` of its contents that it chooses without reading them: it
keeps them, writes the bit at the cursor, or clears them. -/

/-- `s` with other contents of the frame store. -/
def withFrame (m : Memory Bool) (s : State) : State := { s with frame := m }

/-- Bit `a` of the store belongs to the frame in reception, or to the one that awaits TAKE. -/
def InFrame (s : State) (a : Nat) : Prop := (s.rxState = .data ∨ s.complete = true) ∧ a < s.wrBits.toNat

/-- `φ` keeps bit `a`. -/
def KeepsBit (φ : Memory Bool → Memory Bool) (a : Nat) : Prop := ∀ m, Memory.read (φ m) a = Memory.read m a

/-- `φ` gives bit `a` a value that does not depend on the contents. -/
def FixesBit (φ : Memory Bool → Memory Bool) (a : Nat) : Prop :=
  ∀ m m', Memory.read (φ m) a = Memory.read (φ m') a

/-- `φ` keeps or fixes each bit, and fixes each bit that `u` counts to its frame and `s` does not. -/
structure StoreAction (φ : Memory Bool → Memory Bool) (s u : State) : Prop where
  bitwise : ∀ a, KeepsBit φ a ∨ FixesBit φ a
  fresh   : RxInv s → ∀ a, InFrame u a → InFrame s a ∨ FixesBit φ a

theorem StoreAction.keep (h : RxInv s → ∀ a, InFrame u a → InFrame s a) : StoreAction id s u :=
  ⟨fun _ => .inl fun _ => rfl, fun hinv a ha => .inl (h hinv a ha)⟩

theorem fixesBit_write (k : Nat) (v : Bool) : FixesBit (Memory.write k v) k := fun m m' => by
  rw [read_write_same, read_write_same]

theorem keepsBit_write {a k : Nat} (h : a ≠ k) (v : Bool) : KeepsBit (Memory.write k v) a := read_write_other h v

/-- Storing a bit moves the cursor one on at most, past the bit that is written. -/
theorem storeAction_storeBit (hd : s.rxState = .data) (v : Bool) :
    StoreAction (Memory.write s.wrBits.toNat v) s (s.storeBit v) where
  bitwise a := by
    by_cases ha : a = s.wrBits.toNat
    · exact .inr (ha ▸ fixesBit_write _ v)
    · exact .inl (keepsBit_write ha v)
  fresh _ a ha := by
    have hcursor : (s.storeBit v).wrBits.toNat ≤ s.wrBits.toNat + 1 := by
      rw [storeBit_wrBits, BitVec.toNat_add]
      exact Nat.mod_le _ _
    obtain hlt | rfl := Nat.lt_succ_iff_lt_or_eq.1 (ha.2.trans_le hcursor)
    · exact .inl ⟨.inl hd, hlt⟩
    · exact .inr (fixesBit_write _ v)

/-- The terminator retracts the cursor over bits of the frame (spec/10_state.md R150 item 5). -/
theorem inFrame_of_finishFrame {a : Nat} (hinv : RxInv s) (hd : s.rxState = .data) (hr : s.run.toNat = 7)
    (ha : InFrame s.finishFrame a) : InFrame s a := by
  have h7 : 7 ≤ s.wrBits.toNat := hr ▸ hinv.runInFrame hd
  have hw : s.finishFrame.wrBits.toNat = s.wrBits.toNat - 7 := BitVec.toNat_sub_of_le (y := 7#16) h7
  exact ⟨.inl hd, ha.2.trans_le (hw ▸ Nat.sub_le _ _)⟩

/-- A desync abandons the frame in reception, and leaves one that awaits TAKE. -/
theorem inFrame_of_toIdle {a : Nat} (ha : InFrame s.toIdle a) : InFrame s a := ⟨.inr (ha.1.resolve_left nofun), ha.2⟩

/-- From `s` the rule does the same, with the same outcome, whatever the store holds, and acts on it by one function. -/
def BlindToStore (f : State → RxResult) (s : State) : Prop :=
  ∀ {u : State} {o : OpOutcome}, f s = .ok (u, o) →
    ∃ φ, StoreAction φ s u ∧ ∀ m, f (withFrame m s) = .ok (withFrame (φ m) u, o)

theorem writeBit_blindToStore (v : Bool) (hd : s.rxState = .data) : BlindToStore (writeBit v) s := by
  intro u o h
  obtain ⟨hr, rfl, rfl, rfl⟩ | ⟨hr, rfl, rfl, rfl⟩ | ⟨hr, hw, rfl, rfl⟩ | ⟨hr, hw, rfl, rfl⟩ := writeBit_cases h
  · exact ⟨id, .keep fun hinv _ => inFrame_of_finishFrame hinv hd hr, fun m =>
      writeBit_terminator (s := withFrame m s) hr⟩
  · exact ⟨id, .keep fun _ _ ha => ha, fun m => writeBit_stuffed (s := withFrame m s) hr⟩
  · exact ⟨id, .keep fun _ _ => inFrame_of_toIdle, fun m => writeBit_full (s := withFrame m s) v hr hw⟩
  · exact ⟨_, storeAction_storeBit hd v, fun m => writeBit_store (s := withFrame m s) v hr hw⟩

theorem rxIdle_blindToStore (dir : Bool) : BlindToStore (rxIdle dir) s := by
  intro u o h
  obtain ⟨rfl, rfl, rfl⟩ | ⟨rfl, rfl, rfl⟩ := rxIdle_cases h
  · exact ⟨id, .keep fun _ _ ha => ⟨.inr (ha.1.resolve_left nofun), ha.2⟩, fun _ => rfl⟩
  · exact ⟨id, .keep fun _ _ ha => ha, fun _ => rfl⟩

theorem rxSync_blindToStore (c : IntervalClass) : BlindToStore (rxSync c) s := by
  intro u o h
  obtain ⟨hc, rfl, rfl⟩ | ⟨rfl, hn, rfl, rfl⟩ | ⟨rfl, hn, hf, rfl, rfl⟩ | ⟨rfl, hn, hf, rfl, rfl⟩ := rxSync_cases h
  · refine ⟨id, .keep fun _ _ => inFrame_of_toIdle, fun _ => ?_⟩
    cases c with
    | long => exact absurd rfl hc
    | short | bad => rfl
  · exact ⟨id, .keep fun _ _ ha => ha, fun m => rxSync_count (s := withFrame m s) hn⟩
  · exact ⟨id, .keep fun _ _ => inFrame_of_toIdle, fun m => rxSync_refuse (s := withFrame m s) hn hf⟩
  · exact ⟨id, .keep fun _ _ ha => absurd ha.2 (Nat.not_lt_zero _), fun m =>
      rxSync_lock (s := withFrame m s) hn hf⟩

theorem rxData_blindToStore (c : IntervalClass) (hd : s.rxState = .data) : BlindToStore (rxData c) s := by
  intro u o h
  obtain ⟨rfl, hp, rfl, rfl⟩ | ⟨rfl, hp, rfl, rfl⟩ | ⟨rfl, rfl, rfl⟩ | ⟨v, hv, hw⟩ := rxData_cases h
  · exact ⟨id, .keep fun _ _ ha => ha, fun _ => if_neg (show ¬ s.pendingHalf = true by simp [hp])⟩
  · exact ⟨id, .keep fun _ _ => inFrame_of_toIdle, fun _ => if_pos hp⟩
  · exact ⟨id, .keep fun _ _ => inFrame_of_toIdle, fun _ => rfl⟩
  · obtain ⟨φ, hφ, hm⟩ := writeBit_blindToStore (s := afterRecovery v s) v hd hw
    exact ⟨φ, ⟨hφ.bitwise, fun hinv => hφ.fresh (hinv.afterRecovery v)⟩, fun m =>
      (rxData_recovers (s := withFrame m s) hv).trans (hm m)⟩

theorem rxEdge_blindToStore (dir : Bool) (iv : Nat) : BlindToStore (rxEdge dir iv) s := by
  intro u o h
  have hr : ∀ m, (withFrame m s).rxState = s.rxState := fun _ => rfl
  simp only [rxEdge, hr] at h ⊢
  cases hs : s.rxState <;> simp only [hs] at h ⊢
  · exact rxIdle_blindToStore dir h
  · exact rxSync_blindToStore _ h
  · exact rxData_blindToStore _ hs h

theorem rxOverflow_blindToStore : BlindToStore rxOverflow s := by
  intro u o h
  have hr : ∀ m, (withFrame m s).rxState = s.rxState := fun _ => rfl
  simp only [rxOverflow, hr] at h ⊢
  cases hs : s.rxState <;> simp only [hs] at h ⊢
  · cases h
    exact ⟨id, .keep fun _ _ ha => ha, fun _ => rfl⟩
  · exact rxSync_blindToStore _ h
  · exact rxData_blindToStore _ hs h

/-- Every operation but TAKE does the same, with the same event, whatever the store holds, and acts on it by one
function. -/
theorem exec_blindToStore (hi : ∀ len, i ≠ .take len) (h : exec i s = .next t) :
    ∃ φ, StoreAction φ s t ∧ ∀ m, exec i (withFrame m s) = .next (withFrame (φ m) t) := by
  cases i with
  | tick | txWrite | txStart =>
    obtain ⟨u, o, r, rfl, hu⟩ := exec_txSide_uniform rfl h
    exact ⟨id, .keep fun _ _ ha => ha, fun m => hu (withFrame m s)⟩
  | edge dir iv =>
    obtain ⟨u, o, hx, rfl⟩ := concludeRx_next (x := rxEdge dir iv.toNat s) h
    obtain ⟨φ, hφ, hm⟩ := rxEdge_blindToStore dir iv.toNat hx
    exact ⟨φ, ⟨hφ.bitwise, hφ.fresh⟩, fun m => congrArg concludeRx (hm m)⟩
  | overflow =>
    obtain ⟨u, o, hx, rfl⟩ := concludeRx_next (x := asOverflow (rxOverflow s)) h
    obtain ⟨o', hy, rfl⟩ := asOverflow_ok hx
    obtain ⟨φ, hφ, hm⟩ := rxOverflow_blindToStore hy
    exact ⟨φ, ⟨hφ.bitwise, hφ.fresh⟩, fun m => congrArg (concludeRx ∘ asOverflow) (hm m)⟩
  | take len => exact absurd rfl (hi len)
  | reset =>
    cases (reset_next s).symm.trans h
    exact ⟨fun _ => [], ⟨fun _ => .inr fun _ _ => rfl, fun _ _ _ => .inr fun _ _ => rfl⟩, fun _ => rfl⟩

/-- Run from its own contents, the operation leaves what `φ` makes of them. -/
theorem frame_eq_of_blind {φ : Memory Bool → Memory Bool} (h : exec i s = .next t)
    (hm : ∀ m, exec i (withFrame m s) = .next (withFrame (φ m) t)) : t.frame = φ s.frame :=
  congrArg State.frame (Host.Outcome.next.inj (h.symm.trans (hm s.frame)))

/-- Settles O41: each bit is kept or fixed by the operation's action on the store. -/
theorem onlyTakeReadsFrameStore : Obligations.OnlyTakeReadsFrameStore := by
  intro i s t f hi h
  obtain ⟨φ, hφ, hm⟩ := exec_blindToStore hi h
  refine ⟨φ f, hm f, fun a => ?_⟩
  rw [frame_eq_of_blind h hm]
  exact (hφ.bitwise a).imp (fun hk => ⟨hk f, hk s.frame⟩) fun hx => hx f s.frame

/-! ### What TAKE can return (spec/20_memory.md R213) -/

/-- The bytes TAKE returns lie below the cursor, so inside the store. -/
theorem takeCount_le_bufBytes (h : LinkInv s) (len : BitVec 16) : takeCount len s ≤ s.params.bufBytes := by
  have hcursor := h.cursor
  simp only [frameBits, takeCount] at hcursor ⊢
  omega

/-- Every bit that TAKE returns lies below the cursor. -/
theorem lt_cursor_of_taken {len : BitVec 16} {a : Nat} (ha : a < 8 * takeCount len s) : a < s.wrBits.toNat := by
  simp only [takeCount] at ha
  omega

/-- Bytes of equal bits are equal. -/
theorem frameBytes_congr {n : Nat} (h : ∀ a < 8 * n, frameBit t a = frameBit s a) :
    (List.range n).map (frameByte t) = (List.range n).map (frameByte s) := by
  refine List.map_congr_left fun j hj => ?_
  have hj : j < n := List.mem_range.1 hj
  simp (disch := omega) only [frameByte, h]

/-- What TAKE returns of a completed frame (spec/42_frame_store.md R601). -/
def takenResponse (len : BitVec 16) (s : State) : Response :=
  responseOf ((List.range (takeCount len s)).map (frameByte s))

/-- TAKE returns the same from any state with the same cursor whose store reads alike below it. -/
theorem take_sameBits (len : BitVec 16) (h : LinkInv s) (hc : s.complete = true) (hr : SameReceiverRegs s t)
    (hp : t.params = s.params) (hb : ∀ a < s.wrBits.toNat, frameBit t a = frameBit s a) :
    exec (.take len) t = .next (t.releaseFrame.record (.ok []) (some (takenResponse len s))) := by
  have hn : takeCount len t = takeCount len s := by simp only [takeCount, hr.wrBits]
  have hbytes := frameBytes_congr fun a ha => hb a (lt_cursor_of_taken (len := len) ha)
  rw [take_frame (hr.complete.trans hc) (hn ▸ hp ▸ takeCount_le_bufBytes h len), hn, hbytes, takenResponse]

/-- A written bit reads as written, whichever draw the store has. -/
theorem frameBit_draws {n : Nat} (h : WrittenBelow s n) (d : Nat) :
    ∀ a < n, frameBit { s with draws := d } a = frameBit s a := by
  intro a ha
  obtain ⟨v, hv⟩ := h a ha
  simp [frameBit, hv]

/-- With the contents `m` the bits of the frame read as they do in `s`. -/
def AgreesInFrame (m : Memory Bool) (s : State) : Prop :=
  ∀ a, InFrame s a → Memory.read m a = Memory.read s.frame a

/-- The bits of the frame still read alike afterwards: those it had, kept or fixed, and the new ones, fixed. -/
theorem StoreAction.agrees {φ : Memory Bool → Memory Bool} {m : Memory Bool} (hφ : StoreAction φ s u) (h : RxInv s)
    (hm : AgreesInFrame m s) (a : Nat) (ha : InFrame u a) : Memory.read (φ m) a = Memory.read (φ s.frame) a := by
  obtain hkeep | hfix := hφ.bitwise a
  · obtain hin | hfix := hφ.fresh h a ha
    · rw [hkeep m, hkeep s.frame, hm a hin]
    · exact hfix m s.frame
  · exact hfix m s.frame

/-- An operation completes alike, with the same event, from contents that agree in the frame, and they agree after it. -/
theorem exec_agreesInFrame {m : Memory Bool} (h : LinkInv s) (hm : AgreesInFrame m s) (hx : exec i s = .next t) :
    ∃ g, exec i (withFrame m s) = .next (withFrame g t) ∧ AgreesInFrame g t := by
  by_cases hi : ∃ len, i = .take len
  · obtain ⟨len, rfl⟩ := hi
    obtain ⟨hc, rfl⟩ | ⟨hc, -, rfl⟩ := take_cases hx
    · exact ⟨m, take_noFrame (s := withFrame m s) hc, hm⟩
    · have hb : ∀ a < s.wrBits.toNat, frameBit (withFrame m s) a = frameBit s a := fun a ha => by
        simp only [frameBit, withFrame, hm a ⟨.inr hc, ha⟩]
      exact ⟨m, take_sameBits (t := withFrame m s) len h hc ⟨rfl, rfl, rfl, rfl, rfl, rfl, rfl⟩ rfl hb,
        fun a ha => absurd ha.2 (Nat.not_lt_zero a)⟩
  · obtain ⟨φ, hφ, hblind⟩ := exec_blindToStore (fun len he => hi ⟨len, he⟩) hx
    refine ⟨φ m, hblind m, fun a ha => ?_⟩
    rw [frame_eq_of_blind hx hblind]
    exact hφ.agrees (linkInv_iff.1 h).2.1 hm a ha

theorem execAll_agreesInFrame {is : List Instr} {m : Memory Bool} (h : LinkInv s) (hm : AgreesInFrame m s)
    (hx : execAll is s = .next t) : ∃ g, execAll is (withFrame m s) = .next (withFrame g t) := by
  induction is generalizing s m with
  | nil =>
    cases hx
    exact ⟨m, rfl⟩
  | cons i is ih =>
    obtain ⟨u, hu, hx⟩ := execAll_cons_next.1 hx
    obtain ⟨g, hg, hagree⟩ := exec_agreesInFrame h hm hu
    obtain ⟨g', hg'⟩ := ih (exec_keeps_linkInv h hu) hagree hx
    exact ⟨g', execAll_cons_next.2 ⟨_, hg, hg'⟩⟩

/-- With no bit of a frame stored, any contents agree in the frame. -/
theorem agreesInFrame_of_noBits (hc : s.complete = false) (hw : s.rxState = .data → s.wrBits = 0#16)
    (m : Memory Bool) : AgreesInFrame m s := by
  rintro a ⟨hd | hc', ha⟩
  · simp [hw hd] at ha
  · simp [hc] at hc'

/-- Settles O40: TAKE reads written bits alone, and the bits of a frame never depend on what the store held before. -/
theorem takeReturnsWrittenBits : Obligations.TakeReturnsWrittenBits := by
  refine ⟨fun s len d h hc => ?_, fun s t f is h hc hw hx => ?_⟩
  · have hwritten := h.written (.inr hc)
    have hdraws := frameBit_draws hwritten d
    exact ⟨fun a ha => hwritten a (lt_cursor_of_taken (len := len) ha), _, _,
      take_sameBits len h hc (SameRxSide.refl s).regs rfl fun _ _ => rfl,
      take_sameBits (t := { s with draws := d }) len h hc ⟨rfl, rfl, rfl, rfl, rfl, rfl, rfl⟩ rfl hdraws, rfl⟩
  · obtain ⟨g, hg⟩ := execAll_agreesInFrame h (agreesInFrame_of_noBits hc hw f) hx
    exact ⟨withFrame g t, hg, rfl⟩

end Sys2Proof.Proofs
end

section
/-! PROOF. Encoding (spec/30_encoding.md). A format is determined by its fields, so encoding and decoding undo each other;
a mask of R311 tests the opcode and the reserved bits, so a row accepts the words of its operations and no others; the
spellings of R360 give those words; and the expansion of SEND drives a whole frame. -/

namespace Sys2Proof.Proofs

open Sys2Proof Sys2Proof.Config Sys2Proof.Machine Sys2Proof.Safety Sys2Proof.Laws

variable {s t : State} {w : Word} {r : OpRow} {p bs : List Byte} {k n : Nat}

/-! ### Formats and their fields (spec/30_encoding.md R301) -/

theorem dirField_eq_iff {dir : Bool} : dirField w = dir ↔ w.toNat / 2 ^ 16 % 2 = dir.toNat := by
  rw [dirField_eq]
  cases dir <;> simp

theorem eq_formatN_iff {op : BitVec 4} : w = formatN op ↔ opField w = op ∧ reservedN w = 0#28 := by
  simp only [← BitVec.toNat_inj, formatN_toNat, opField_toNat, reservedN_toNat, BitVec.toNat_ofNat]
  omega

theorem eq_formatE_iff {op : BitVec 4} {dir : Bool} {iv : BitVec 16} :
    w = formatE op dir iv ↔ opField w = op ∧ reservedE w = 0#11 ∧ dirField w = dir ∧ lowField w = iv := by
  have hdir := dir.toNat_le
  simp only [← BitVec.toNat_inj, formatE_toNat, opField_toNat, reservedE_toNat, dirField_eq_iff, lowField_toNat,
    BitVec.toNat_ofNat]
  omega

theorem eq_formatW_iff {op : BitVec 4} {idx : BitVec 16} {data : Byte} :
    w = formatW op idx data ↔ opField w = op ∧ reservedW w = 0#4 ∧ idxField w = idx ∧ dataField w = data := by
  simp only [← BitVec.toNat_inj, formatW_toNat, opField_toNat, reservedW_toNat, idxField_toNat, dataField_toNat,
    BitVec.toNat_ofNat]
  omega

theorem eq_formatL_iff {op : BitVec 4} {len : BitVec 16} :
    w = formatL op len ↔ opField w = op ∧ reservedL w = 0#12 ∧ lowField w = len := by
  simp only [← BitVec.toNat_inj, formatL_toNat, opField_toNat, reservedL_toNat, lowField_toNat, BitVec.toNat_ofNat]
  omega

/-! ### Encoding and decoding (spec/30_encoding.md R351) -/

/-- Settles O1: an operation's format fixes every field that decoding reads. -/
theorem decodeEncodeRoundTrip : Obligations.DecodeEncodeRoundTrip := by
  intro i
  cases i with
  | tick | overflow | reset => rfl
  | edge dir iv =>
    obtain ⟨hop, hres, hdir, hlow⟩ := eq_formatE_iff.1 (rfl : encode (.edge dir iv) = formatE 0x2#4 dir iv)
    simp [decode, ifReservedZero, hop, hres, hdir, hlow]
  | txWrite idx data =>
    obtain ⟨hop, hres, hidx, hdata⟩ := eq_formatW_iff.1 (rfl : encode (.txWrite idx data) = formatW 0x4#4 idx data)
    simp [decode, ifReservedZero, hop, hres, hidx, hdata]
  | txStart len =>
    obtain ⟨hop, hres, hlow⟩ := eq_formatL_iff.1 (rfl : encode (.txStart len) = formatL 0x5#4 len)
    simp [decode, ifReservedZero, hop, hres, hlow]
  | take len =>
    obtain ⟨hop, hres, hlow⟩ := eq_formatL_iff.1 (rfl : encode (.take len) = formatL 0x6#4 len)
    simp [decode, ifReservedZero, hop, hres, hlow]

/-- Settles O2: an opcode with its reserved bits 0 leaves only the operands, which are all in the operation. -/
theorem encodeDecodeRoundTrip : Obligations.EncodeDecodeRoundTrip := by
  intro w i h
  have hop (k : BitVec 4) (hk : (opField w).toNat = k.toNat) : opField w = k := BitVec.eq_of_toNat_eq hk
  unfold decode at h
  split at h
  case h_8 => cases h
  all_goals
    obtain ⟨hres, rfl⟩ := ifReservedZero_op h
    replace hres := BitVec.eq_of_toNat_eq (y := 0) hres
  case h_1 hk => exact (eq_formatN_iff.2 ⟨hop 1 hk, hres⟩).symm
  case h_2 hk => exact (eq_formatE_iff.2 ⟨hop 2 hk, hres, rfl, rfl⟩).symm
  case h_3 hk => exact (eq_formatN_iff.2 ⟨hop 3 hk, hres⟩).symm
  case h_4 hk => exact (eq_formatW_iff.2 ⟨hop 4 hk, hres, rfl, rfl⟩).symm
  case h_5 hk => exact (eq_formatL_iff.2 ⟨hop 5 hk, hres, rfl⟩).symm
  case h_6 hk => exact (eq_formatL_iff.2 ⟨hop 6 hk, hres, rfl⟩).symm
  case h_7 hk => exact (eq_formatN_iff.2 ⟨hop 7 hk, hres⟩).symm

/-! ### The match-and-mask table (spec/30_encoding.md R311, R350) -/

/-- The model's lemma of each operation, for any operation. -/
theorem rowMatch : ∀ i : Instr, RowMatch.Statement i
  | .tick             => RowMatch.tick
  | .edge dir iv      => RowMatch.edge dir iv
  | .overflow         => RowMatch.overflow
  | .txWrite idx data => RowMatch.txWrite idx data
  | .txStart len      => RowMatch.txStart len
  | .take len         => RowMatch.take len
  | .reset            => RowMatch.reset

/-- A mask that keeps the bits from `n` up tests exactly those bits. -/
theorem and_highMask_eq_iff {p : Word} (n : Nat) (hp : 2 ^ n ∣ p.toNat) :
    w &&& (BitVec.allOnes 32 <<< n) = p ↔ w.toNat / 2 ^ n = p.toNat / 2 ^ n := by
  have hw : w.toNat / 2 ^ n * 2 ^ n < 2 ^ 32 := (Nat.div_mul_le_self _ _).trans_lt w.isLt
  rw [← BitVec.shiftLeft_ushiftRight, ← BitVec.toNat_inj, BitVec.toNat_shiftLeft, BitVec.toNat_ushiftRight,
    Nat.shiftRight_eq_div_pow, Nat.shiftLeft_eq, Nat.mod_eq_of_lt hw, ← Nat.div_mul_cancel hp,
    Nat.mul_left_inj (by positivity), Nat.mul_div_cancel _ (by positivity)]

/-! Each mask of R311 keeps the opcode and the reserved bits of its row's format. -/

theorem maskN_iff {op : BitVec 4} : w &&& 0xFFFFFFFF#32 = formatN op ↔ opField w = op ∧ reservedN w = 0#28 := by
  rw [← eq_formatN_iff, show 0xFFFFFFFF#32 = BitVec.allOnes 32 from rfl, BitVec.and_allOnes]

theorem maskE_iff {op : BitVec 4} : w &&& 0xFFFE0000#32 = formatN op ↔ opField w = op ∧ reservedE w = 0#11 := by
  refine (and_highMask_eq_iff 17 (by rw [formatN_toNat]; omega)).trans ?_
  simp only [← BitVec.toNat_inj, formatN_toNat, opField_toNat, reservedE_toNat, BitVec.toNat_ofNat]
  omega

theorem maskW_iff {op : BitVec 4} : w &&& 0xFF000000#32 = formatN op ↔ opField w = op ∧ reservedW w = 0#4 := by
  refine (and_highMask_eq_iff 24 (by rw [formatN_toNat]; omega)).trans ?_
  simp only [← BitVec.toNat_inj, formatN_toNat, opField_toNat, reservedW_toNat, BitVec.toNat_ofNat]
  omega

theorem maskL_iff {op : BitVec 4} : w &&& 0xFFFF0000#32 = formatN op ↔ opField w = op ∧ reservedL w = 0#12 := by
  refine (and_highMask_eq_iff 16 (by rw [formatN_toNat]; omega)).trans ?_
  simp only [← BitVec.toNat_inj, formatN_toNat, opField_toNat, reservedL_toNat, BitVec.toNat_ofNat]
  omega

/-- A word that a row accepts is the word of an operation of that row. -/
theorem exists_encode_of_match (hr : r ∈ opTable) (h : w &&& r.mask = r.pattern) :
    ∃ i, encode i = w ∧ i.row = r := by
  simp only [opTable, List.mem_cons, List.not_mem_nil, or_false] at hr
  obtain rfl | rfl | rfl | rfl | rfl | rfl | rfl := hr
  · exact ⟨.tick, (eq_formatN_iff.2 (maskN_iff.1 h)).symm, rfl⟩
  · obtain ⟨hop, hres⟩ := maskE_iff (op := 0x2#4).1 h
    exact ⟨.edge _ _, (eq_formatE_iff.2 ⟨hop, hres, rfl, rfl⟩).symm, rfl⟩
  · exact ⟨.overflow, (eq_formatN_iff.2 (maskN_iff.1 h)).symm, rfl⟩
  · obtain ⟨hop, hres⟩ := maskW_iff (op := 0x4#4).1 h
    exact ⟨.txWrite _ _, (eq_formatW_iff.2 ⟨hop, hres, rfl, rfl⟩).symm, rfl⟩
  · obtain ⟨hop, hres⟩ := maskL_iff (op := 0x5#4).1 h
    exact ⟨.txStart _, (eq_formatL_iff.2 ⟨hop, hres, rfl⟩).symm, rfl⟩
  · obtain ⟨hop, hres⟩ := maskL_iff (op := 0x6#4).1 h
    exact ⟨.take _, (eq_formatL_iff.2 ⟨hop, hres, rfl⟩).symm, rfl⟩
  · exact ⟨.reset, (eq_formatN_iff.2 (maskN_iff.1 h)).symm, rfl⟩

theorem encode_match (i : Instr) : encode i &&& i.row.mask = i.row.pattern := (accepts_iff _ _).1 (rowMatch i).1

theorem row_mem_opTable (i : Instr) : i.row ∈ opTable := (rowMatch i).2.1

theorem row_mnemonic (i : Instr) : i.row.mnemonic = i.mnemonic := (rowMatch i).2.2.1

/-- Settles O3: the words a row accepts are the words of its operations. -/
theorem wordSpellsOpExactlyWhenRowMatches : Obligations.WordSpellsOpExactlyWhenRowMatches := by
  refine fun w => ⟨fun r hr => ⟨fun h => ?_, ?_⟩, fun r hr q hq h h' => ?_⟩
  · obtain ⟨i, rfl, rfl⟩ := exists_encode_of_match hr h
    exact ⟨i, decodeEncodeRoundTrip i, rfl, (row_mnemonic i).symm⟩
  · rintro ⟨i, hd, rfl, -⟩
    rw [← encodeDecodeRoundTrip w i hd]
    exact encode_match i
  · obtain ⟨i, rfl, rfl⟩ := exists_encode_of_match hr h
    obtain ⟨j, hji, rfl⟩ := exists_encode_of_match hq h'
    have hij : Decoded.op i = .op j := by rw [← decodeEncodeRoundTrip i, ← hji, decodeEncodeRoundTrip]
    cases hij
    rfl

/-- An opcode is reserved, or some row has it (spec/30_encoding.md R310). -/
theorem opcode_cases : ∀ op : BitVec 4, op.toNat = 0 ∨ 8 ≤ op.toNat ∨ ∃ r ∈ opTable, opField r.pattern = op := by
  decide

theorem row_opField_bounds : ∀ r ∈ opTable, 1 ≤ (opField r.pattern).toNat ∧ (opField r.pattern).toNat < 8 := by decide

theorem row_eq_of_opField : ∀ r ∈ opTable, ∀ q ∈ opTable, opField r.pattern = opField q.pattern → r = q := by decide

/-- No mask clears an opcode bit, so a word has the opcode of the row that it matches. -/
theorem opField_of_match (hr : r ∈ opTable) (h : w &&& r.mask = r.pattern) : opField w = opField r.pattern := by
  have hmask : ∀ r ∈ opTable, opField r.mask = BitVec.allOnes 4 := by decide
  calc opField w = opField w &&& opField r.mask := by rw [hmask r hr, BitVec.and_allOnes]
    _ = opField (w &&& r.mask) := BitVec.extractLsb'_and.symm
    _ = opField r.pattern := by rw [h]

/-- A word is refused exactly when it is no operation's word. -/
theorem decode_refuses_iff (w : Word) : decode w = .refuse .reserved ↔ ∀ i, encode i ≠ w := by
  constructor
  · rintro h i rfl
    rw [decodeEncodeRoundTrip] at h
    cases h
  · intro h
    cases hd : decode w with
    | op i => exact absurd (encodeDecodeRoundTrip w i hd) (h i)
    | refuse q => cases q; rfl

/-- Settles O4: an operation's word has the opcode of its row, which is no reserved one, and matches that row. -/
theorem illegalWordSpellsNothing : Obligations.IllegalWordSpellsNothing := by
  intro w
  rw [decode_refuses_iff]
  constructor
  · intro h
    refine (opcode_cases (opField w)).imp_right (Or.imp_right ?_)
    rintro ⟨r, hr, hop⟩
    refine ⟨r, hr, hop, fun hm => ?_⟩
    obtain ⟨i, hi, -⟩ := exists_encode_of_match hr hm
    exact h i hi
  · rintro h i rfl
    rw [opField_of_match (row_mem_opTable i) (encode_match i)] at h
    obtain ⟨hlo, hhi⟩ := row_opField_bounds _ (row_mem_opTable i)
    obtain h0 | h8 | ⟨r, hr, hop, hne⟩ := h
    · omega
    · omega
    · exact hne (row_eq_of_opField _ hr _ (row_mem_opTable i) hop ▸ encode_match i)

/-- Settles O5: the vectors are fixed words, and decoding evaluates. -/
theorem sampleWordsDecode : Obligations.SampleWordsDecode := by
  unfold Obligations.SampleWordsDecode
  decide

/-! ### Spellings (spec/30_encoding.md R360) -/

/-- Putting a value into zero bits by `|||` adds it. -/
theorem or_toNat_of_lt {w x : Word} (k : Nat) (hw : 2 ^ k ∣ w.toNat) (hx : x.toNat < 2 ^ k) :
    (w ||| x).toNat = w.toNat + x.toNat := by
  obtain ⟨a, ha⟩ := hw
  rw [BitVec.toNat_or, ha, Nat.two_pow_add_eq_or_of_lt hx]

theorem formatE_eq_or (op : BitVec 4) (dir : Bool) {v : Nat} (hv : v < 2 ^ 16) :
    formatE op dir (BitVec.ofNat 16 v) = formatE op dir 0#16 ||| BitVec.ofNat 32 v := by
  rw [← BitVec.toNat_inj, or_toNat_of_lt 16] <;> simp only [formatE_toNat, BitVec.toNat_ofNat] <;> omega

theorem formatL_eq_or (op : BitVec 4) {v : Nat} (hv : v < 2 ^ 16) :
    formatL op (BitVec.ofNat 16 v) = formatL op 0#16 ||| BitVec.ofNat 32 v := by
  rw [← BitVec.toNat_inj, or_toNat_of_lt 16] <;> simp only [formatL_toNat, BitVec.toNat_ofNat] <;> omega

theorem formatW_eq_or (op : BitVec 4) {i b : Nat} (hi : i < 2 ^ 16) (hb : b < 2 ^ 8) :
    formatW op (BitVec.ofNat 16 i) (BitVec.ofNat 8 b)
      = formatN op ||| BitVec.ofNat 32 i <<< 8 ||| BitVec.ofNat 32 b := by
  have hidx : (formatN op ||| BitVec.ofNat 32 i <<< 8).toNat = op.toNat * 2 ^ 28 + i * 2 ^ 8 := by
    rw [or_toNat_of_lt 28] <;>
      simp only [formatN_toNat, BitVec.toNat_shiftLeft, BitVec.toNat_ofNat, Nat.shiftLeft_eq] <;> omega
  rw [← BitVec.toNat_inj, or_toNat_of_lt 8] <;> simp only [hidx, formatW_toNat, BitVec.toNat_ofNat] <;> omega

theorem fieldOf_some {n v : Nat} (h : v < 2 ^ n) : fieldOf n v = some (BitVec.ofNat n v) := if_pos h

theorem fieldOf_none {n v : Nat} (h : 2 ^ n ≤ v) : fieldOf n v = none := if_neg (Nat.not_lt.2 h)

theorem map_fieldOf {α : Type} (n v : Nat) (f : BitVec n → α) :
    (fieldOf n v).map f = if v < 2 ^ n then some (f (BitVec.ofNat n v)) else none := by
  unfold fieldOf
  split <;> rfl

/-- An operand that fits its 16 bits gives one word, and a larger one none. -/
theorem oneField_eq_ite {v : Nat} {f : BitVec 16 → Instr} {w : Word}
    (hw : v < 2 ^ 16 → encode (f (BitVec.ofNat 16 v)) = w) :
    oneField v f = if v ≤ 65535 then some [w] else none :=
  (map_fieldOf 16 v _).trans
    (ite_congr (propext Nat.lt_succ_iff) (fun h => congrArg (fun x => some [x]) (hw (Nat.lt_succ_of_le h))) fun _ => rfl)

theorem assemble_txw (p : Params) (i b : Nat) :
    assemble p (.txw i b) = if i ≤ 65535 ∧ b ≤ 255
      then some [0x40000000#32 ||| BitVec.ofNat 32 i <<< 8 ||| BitVec.ofNat 32 b] else none := by
  obtain hi | hi := lt_or_ge i (2 ^ 16)
  · obtain hb | hb := lt_or_ge b (2 ^ 8)
    · simp only [assemble, fieldOf_some hi, fieldOf_some hb]
      rw [if_pos (by omega)]
      exact congrArg (fun w => some [w]) (formatW_eq_or 0x4#4 hi hb)
    · simp only [assemble, fieldOf_some hi, fieldOf_none hb]
      rw [if_neg (by omega)]
  · simp only [assemble, fieldOf_none hi]
    rw [if_neg (by omega)]

/-- Settles O6: a format with an operand is the format with zeros in its place, or-ed with the operand. -/
theorem scriptSpellingsGiveTheirWords : Obligations.ScriptSpellingsGiveTheirWords := by
  refine fun p => ⟨rfl, rfl, rfl, fun iv => ?_, fun iv => ?_, assemble_txw p, fun len => ?_, fun len => ?_,
    fun w => ?_⟩
  · exact oneField_eq_ite (formatE_eq_or 0x2#4 true)
  · exact oneField_eq_ite (formatE_eq_or 0x2#4 false)
  · exact oneField_eq_ite (formatL_eq_or 0x5#4)
  · exact oneField_eq_ite (formatL_eq_or 0x6#4)
  · exact map_fieldOf 32 w _

/-! ### Sending a frame (spec/40_transmit.md R420, R421) -/

theorem execAll_append_next {is js : List Instr} :
    execAll (is ++ js) s = .next t ↔ ∃ m, execAll is s = .next m ∧ execAll js m = .next t := by
  induction is generalizing s with
  | nil => simp [execAll]
  | cons i is ih =>
    simp only [List.cons_append, execAll_cons_next, ih]
    exact ⟨fun ⟨a, ha, b, hb, ht⟩ => ⟨b, ⟨a, ha, hb⟩, ht⟩, fun ⟨b, ⟨a, ha, hb⟩, ht⟩ => ⟨a, ha, b, hb, ht⟩⟩

/-- The payload being sent, read back from `TxMem`. -/
theorem payload?_bytes (hp : payload? s = some p) :
    s.txLen.toNat = p.length ∧ ∀ (j : Nat) (h : j < p.length), txByte s j = p[j] := by
  obtain ⟨-, rfl⟩ := payload?_eq_some_iff.1 hp
  simp

theorem payload?_startFrame {len : BitVec 16} (hl : len.toNat = bs.length) (hb : bs.length ≤ s.params.txBufBytes)
    (hm : ∀ (j : Nat) (h : j < bs.length), txByte s j = bs[j]) : payload? (s.startFrame len) = some bs := by
  refine payload?_eq_some_iff.2 ⟨hl ▸ hb, List.ext_getElem (by simp [hl]) fun j hj _ => ?_⟩
  rw [List.getElem_map, List.getElem_range]
  exact (hm j hj).symm

/-- `k` levels of the frame of `p` are driven: the line holds the last of them, and the transmitter is busy while one is
left. -/
structure Driven (p : List Byte) (k : Nat) (s : State) : Prop where
  payload  : payload? s = some p
  position : s.txH.toNat = k
  active   : s.txActive = decide (k ≠ (txLevels p).length)
  level    : ∀ j, k = j + 1 → (txLevels p)[j]? = some s.lineOut

theorem driven_startFrame {len : BitVec 16} (o : OpOutcome) (r : Option Response)
    (hp : payload? (s.startFrame len) = some p) : Driven p 0 ((s.startFrame len).record o r) where
  payload  := hp
  position := rfl
  active   := (decide_eq_true (txLevels_length_pos p).ne).symm
  level    := nofun

/-- A TICK drives the next level. -/
theorem Driven.tick (h : Driven p k s) (hk : k < (txLevels p).length) :
    ∃ t, exec .tick s = .next t ∧ Driven p (k + 1) t := by
  have ha : s.txActive = true := h.active.trans (decide_eq_true hk.ne)
  have hmax := txLevels_length_lt ((payload?_bytes h.payload).1.symm.trans_lt s.txLen.isLt)
  have hnext : (s.txH + 1#21).toNat = k + 1 := by
    rw [BitVec.toNat_add_of_lt (y := 1#21) (by simp [h.position]; omega), h.position]
    rfl
  have hlv : levelAt (txLevels p) s.txH = (txLevels p)[k] := by
    have hpos := h.position
    subst hpos
    exact levelAt_inside hk
  refine ⟨_, tick_sending ha h.payload, ?_⟩
  rw [sendLevel_eq ha, hlv]
  refine ⟨h.payload, hnext, ?_, ?_⟩
  · exact congrArg (fun n => decide (n ≠ (txLevels p).length)) hnext
  · rintro j ⟨⟩
    exact List.getElem?_eq_getElem hk

/-- `n` TICKs drive the next `n` levels. -/
theorem Driven.ticks (h : Driven p k s) (hn : k + n ≤ (txLevels p).length) :
    ∃ t, execAll (tickOps n) s = .next t ∧ Driven p (k + n) t := by
  induction n generalizing k s with
  | zero => exact ⟨s, rfl, h⟩
  | succ n ih =>
    obtain ⟨m, hm, h'⟩ := h.tick (by omega)
    obtain ⟨t, ht, hd⟩ := ih h' (by omega)
    exact ⟨t, execAll_cons_next.2 ⟨m, hm, ht⟩, (Nat.add_right_comm k 1 n) ▸ hd⟩

theorem txLevels_getLast? (p : List Byte) : (txLevels p).getLast? = some true := by
  have h : wireBits p = (preambleBits ++ stuff (payloadBits p) ++ List.replicate 7 true) ++ [true] := by simp [wireBits]
  rw [txLevels, h, List.flatMap_append, List.getLast?_append]
  rfl

/-- With all levels driven, the transmitter is idle and the line high. -/
theorem Driven.ended (h : Driven p (txLevels p).length s) : s.txActive = false ∧ s.lineOut = true := by
  have hpos := txLevels_length_pos p
  have hlast := h.level ((txLevels p).length - 1) (by omega)
  rw [← List.getLast?_eq_getElem?, txLevels_getLast?] at hlast
  exact ⟨h.active.trans (by simp), (Option.some.inj hlast).symm⟩

/-- Loading writes the bytes from index `k` on, and leaves the transmitter idle. -/
theorem loadOps_next (ha : s.txActive = false) (hb : k + bs.length ≤ s.params.txBufBytes)
    (hk : k + bs.length ≤ 2 ^ 16) :
    ∃ t, execAll (loadOps k bs) s = .next t ∧ t.txActive = false ∧ t.params = s.params
      ∧ (∀ (j : Nat) (h : j < bs.length), txByte t (k + j) = bs[j]) ∧ ∀ j < k, txByte t j = txByte s j := by
  induction bs generalizing k s with
  | nil => exact ⟨s, rfl, ha, rfl, nofun, fun _ _ => rfl⟩
  | cons b bs ih =>
    rw [List.length_cons] at hb hk
    have hi : (BitVec.ofNat 16 k).toNat = k := Nat.mod_eq_of_lt (by omega)
    have hx := txWrite_inside (data := b) ha (idx := BitVec.ofNat 16 k) (by omega)
    rw [hi] at hx
    obtain ⟨t, ht, hta, htp, hnew, hold⟩ := ih (s := (s.writeTx k b).record (.ok []) none) (k := k + 1) ha
      (show k + 1 + bs.length ≤ s.params.txBufBytes by omega) (by omega)
    refine ⟨t, execAll_cons_next.2 ⟨_, hx, ht⟩, hta, htp, fun j hj => ?_, fun j hj => ?_⟩
    · cases j with
      | zero => simp [hold k (by omega), txByte_writeTx]
      | succ j => simpa [Nat.add_assoc, Nat.add_comm 1 j] using hnew j (by simpa using hj)
    · simp [hold j (by omega), txByte_writeTx, hj.ne]

/-- Settles O18: the loaded bytes are the payload that TX_START finds, and SEND's TICKs are as many as its levels. -/
theorem sendExpansionEndsIdle : Obligations.SendExpansionEndsIdle := by
  intro s bs ha hb hlt
  have hlen : (BitVec.ofNat 16 bs.length).toNat = bs.length := Nat.mod_eq_of_lt hlt
  obtain ⟨u, hu, hua, hup, hmem, -⟩ := loadOps_next (bs := bs) (k := 0) ha (by omega) (by omega)
  simp only [Nat.zero_add] at hmem
  have hub : bs.length ≤ u.params.txBufBytes := hup ▸ hb
  have hstart := txStart_fits (len := BitVec.ofNat 16 bs.length) hua (hlen.trans_le hub)
  have hfirst := driven_startFrame (.ok []) none (payload?_startFrame hlen hub hmem)
  obtain ⟨t, ht, hlast⟩ := hfirst.ticks (n := 2 * (wireBits bs).length) (by simp [txLevels_length])
  rw [Nat.zero_add, ← txLevels_length] at hlast
  obtain ⟨hidle, hline⟩ := hlast.ended
  exact ⟨t, execAll_append_next.2 ⟨u, hu, execAll_cons_next.2 ⟨_, hstart, ht⟩⟩, hidle, hline,
    payload?_bytes hlast.payload⟩

/-! ### A refused word (spec/30_encoding.md R350) -/

/-- With legal parameters a step applies the first word presented. -/
theorem step_presented {ws : List Word} (hl : s.params.legal = true) (hp : s.port = w :: ws) :
    step s = applyWord w (s.withPort ws) := by
  simp [step, hl, nextWord?, hp]

/-- Settles O8: the refusal is recorded in the state with the word taken off the port. -/
theorem stepMarksRefusedWord : Obligations.StepMarksRefusedWord := by
  intro s w rest hl hp hd
  rw [step_presented hl hp, applyWord, hd]
  rfl

end Sys2Proof.Proofs
end

section
/-! PROOF. Transmit (spec/40_transmit.md). The transmit operations on each of their branches; a whole frame on the line;
the sequencer; the levels as a list; and what stuffing does to a list of bits, by one induction over its loop. -/

namespace Sys2Proof.Proofs

open Sys2Proof Sys2Proof.Config Sys2Proof.Machine Sys2Proof.Safety Sys2Proof.Laws

variable {s : State} {p : List Byte} {run : Nat}

/-! ### The transmit operations (spec/40_transmit.md R420, R430, R440) -/

/-- Settles O13: `sendLevel_eq` at a position inside the frame. -/
theorem tickRule : Obligations.TickRule := by
  refine fun s => ⟨tick_idle, fun ha hl h => ?_⟩
  rw [tick_sending ha (payload?_some hl), sendLevel_eq ha, levelAt_inside h]

/-- Settles O15: the byte read back is `txByte_writeTx`. -/
theorem txWriteRule : Obligations.TxWriteRule := by
  refine fun s idx data => ⟨txWrite_busy, txWrite_outside, fun ha hi => ⟨_, txWrite_inside ha hi, ?_, ?_, ?_⟩⟩
  · simp [txByte_writeTx]
  · intro j hj
    simp [txByte_writeTx, hj]
  · exact ⟨⟨rfl, rfl, rfl, rfl, rfl⟩, ⟨rfl, rfl, rfl, rfl, rfl, rfl, rfl⟩, rfl, ⟨fun _ => rfl, fun _ => rfl⟩,
      rfl, rfl, rfl, rfl⟩

/-- Settles O16: TX_START on each of its branches. -/
theorem txStartRule : Obligations.TxStartRule := fun _ _ => ⟨txStart_busy, txStart_tooLong, txStart_fits⟩

/-! ### A frame on the line (spec/40_transmit.md R421) -/

/-- TICKs while idle leave the transmitter idle, its position and its line. -/
theorem ticks_idle (ha : s.txActive = false) (m : Nat) :
    ∃ t, execAll (tickOps m) s = .next t ∧ t.txActive = false ∧ t.txH = s.txH ∧ t.lineOut = s.lineOut := by
  induction m generalizing s with
  | zero => exact ⟨s, rfl, ha, rfl, rfl⟩
  | succ m ih =>
    obtain ⟨t, ht, hrest⟩ := ih (s := s.setPulse.record (.ok []) none) ha
    exact ⟨t, execAll_cons_next.2 ⟨_, tick_idle ha, ht⟩, hrest⟩

/-- TX_START and `k` TICKs drive the first `k` levels of the payload that stood in `TxMem`. -/
theorem driven_start_ticks {len : BitVec 16} {k : Nat} (ha : s.txActive = false)
    (hl : len.toNat ≤ s.params.txBufBytes) (hp : p = (List.range len.toNat).map (txByte s))
    (hk : k ≤ (txLevels p).length) :
    ∃ t, execAll (.txStart len :: tickOps k) s = .next t ∧ Driven p k t := by
  have hfirst : Driven p 0 ((s.startFrame len).record (.ok []) none) :=
    driven_startFrame _ _ (payload?_eq_some_iff.2 ⟨hl, hp⟩)
  obtain ⟨t, ht, hd⟩ := hfirst.ticks (n := k) (by omega)
  exact ⟨t, execAll_cons_next.2 ⟨_, txStart_fits ha hl, ht⟩, k.zero_add ▸ hd⟩

/-- Settles O17: `Driven` after each TICK of the frame, and idle TICKs after its last level. -/
theorem frameConsumesItsTicks : Obligations.FrameConsumesItsTicks := by
  intro s len p ha hl hp
  simp only [← txLevels_length]
  refine ⟨fun k hk hlt => ?_, fun m => ?_⟩
  · obtain ⟨t, ht, hd⟩ := driven_start_ticks ha hl hp hlt.le
    exact ⟨t, ht, hd.active.trans (decide_eq_true hlt.ne), hd.position, hd.level (k - 1) (by omega)⟩
  · obtain ⟨u, hu, hd⟩ := driven_start_ticks ha hl hp le_rfl
    obtain ⟨hidle, hline⟩ := hd.ended
    obtain ⟨t, ht, hta, hth, htl⟩ := ticks_idle hidle m
    rw [List.replicate_add, ← List.cons_append]
    exact ⟨t, execAll_append_next.2 ⟨u, hu, ht⟩, hta, hth ▸ hd.position, htl.trans hline⟩

/-! ### The sequencer (spec/40_transmit.md R422) -/

/-- The sequencer's loops over bytes and their bits are one loop over the payload bits. -/
theorem foldl_seqByte (p : List Byte) (acc : List Bool × Nat) :
    p.foldl seqByte acc = (payloadBits p).foldl seqBit acc := by
  induction p generalizing acc with
  | nil => rfl
  | cons x p ih =>
    rw [payloadBits_cons, List.foldl_append]
    exact ih _

/-- That loop drives, after the levels already driven, those of the stuffed bits. -/
theorem foldl_seqBit (bits lv : List Bool) (run : Nat) :
    (bits.foldl seqBit (lv, run)).1 = lv ++ (stuffFrom run bits).flatMap bitLevels := by
  induction bits generalizing lv run with
  | nil => simp
  | cons b bits ih =>
    rw [List.foldl_cons, seqBit, stuffFrom_cons]
    split <;> simp [ih]

/-- Settles O19: the sequencer's payload loop drives the stuffed payload bits. -/
theorem sequencerDrivesTxLevels : Obligations.SequencerDrivesTxLevels := by
  intro p
  rw [sequencerLevels, foldl_seqByte, foldl_seqBit, txLevels, wireBits, List.flatMap_append, List.flatMap_append,
    List.nil_append, stuff]

/-! ### The levels of a frame (spec/40_transmit.md R410 to R412) -/

/-- The two halves of wire bit `k`. -/
theorem getElem?_flatMap_bitLevels (bits : List Bool) (k : Nat) :
    (bits.flatMap bitLevels)[2 * k]? = bits[k]?.map (!·) ∧ (bits.flatMap bitLevels)[2 * k + 1]? = bits[k]? := by
  induction bits generalizing k with
  | nil => simp
  | cons b bits ih =>
    cases k with
    | zero => simp
    | succ k => simpa [Nat.mul_succ] using ih k

theorem txLevels_firstHalf {k : Nat} (h : k < (wireBits p).length) :
    (txLevels p)[2 * k]? = some (!(wireBits p)[k]) := by
  simp [txLevels, (getElem?_flatMap_bitLevels _ k).1, h]

theorem txLevels_secondHalf {k : Nat} (h : k < (wireBits p).length) :
    (txLevels p)[2 * k + 1]? = some (wireBits p)[k] := by
  simp [txLevels, (getElem?_flatMap_bitLevels _ k).2, h]

/-- The preamble's first level is low. -/
theorem txLevels_head (p : List Byte) : (txLevels p)[0]? = some false := by
  simp [txLevels, wireBits]

/-- Settles O20: each wire bit's two halves. -/
theorem txLevelsAreManchester : Obligations.TxLevelsAreManchester := fun p =>
  ⟨txLevels_length p, fun _ h => ⟨txLevels_firstHalf h, txLevels_secondHalf h⟩⟩

/-- Settles O26: the halves of a wire bit differ, and the first half of the next is its complement. -/
theorem lineTransitions : Obligations.LineTransitions := by
  refine fun p => ⟨fun k h => ?_, fun k h => ?_, txLevels_head p, fun l0 => ?_, txLevels_getLast? p⟩
  · simp [txLevels_firstHalf h, txLevels_secondHalf h]
  · rw [txLevels_secondHalf (Nat.lt_of_succ_lt h), show 2 * k + 2 = 2 * (k + 1) from rfl, txLevels_firstHalf h]
    simp [Bool.eq_not]
  · simp [txLevels_head]

/-- Settles O25: preamble and terminator are 16 bits, and stuffing adds at most a seventh. -/
theorem frameLength : Obligations.FrameLength := by
  intro p
  have hlow : 8 * p.length ≤ (stuff (payloadBits p)).length := by
    simpa [stuff] using length_le_stuffFrom 0 (payloadBits p)
  have hhigh : (stuff (payloadBits p)).length ≤ 8 * p.length + 8 * p.length / 7 := by
    simpa [stuff] using stuffFrom_length_le (run := 0) (by omega) (payloadBits p)
  rw [wireBits_length]
  omega

/-! ### The stuffing loop (spec/40_transmit.md R403)

The loop's graph, with its counter below 7: a 0, the 7th 1 of a run, any other 1. Each law of R404 is one induction over
it. -/

/-- From the counter `run` the loop turns the list `x` into `y`. -/
inductive Stuffs : Nat → List Bool → List Bool → Prop where
  | nil {run : Nat} (h : run < 7) : Stuffs run [] []
  | zero {run : Nat} {x y : List Bool} (h : run < 7) (hs : Stuffs 0 x y) : Stuffs run (false :: x) (false :: y)
  | seventh {x y : List Bool} (hs : Stuffs 0 x y) : Stuffs 6 (true :: x) (true :: false :: y)
  | one {run : Nat} {x y : List Bool} (h : run < 6) (hs : Stuffs (run + 1) x y) : Stuffs run (true :: x) (true :: y)

theorem stuffs_stuffFrom (h : run < 7) (x : List Bool) : Stuffs run x (stuffFrom run x) := by
  induction x generalizing run with
  | nil => exact .nil h
  | cons b x ih =>
    cases b with
    | false => exact .zero h (ih (by omega))
    | true =>
      obtain rfl | hlt := Nat.eq_or_lt_of_le (Nat.le_of_lt_succ h)
      · exact .seventh (ih (by omega))
      · have hne : countRun run true ≠ 7 := show run + 1 ≠ 7 by omega
        rw [stuffFrom_cons, if_neg hne]
        exact .one hlt (ih (by omega))

theorem stuffs_stuff (x : List Bool) : Stuffs 0 x (stuff x) := stuffs_stuffFrom (by omega) x

/-- A list with the run that the counter counts put before it. -/
def onesThen (run : Nat) (x : List Bool) : List Bool := List.replicate run true ++ x

@[simp] theorem onesThen_zero (x : List Bool) : onesThen 0 x = x := rfl

theorem onesThen_true (run : Nat) (x : List Bool) : onesThen run (true :: x) = onesThen (run + 1) x := by
  simp [onesThen, List.replicate_succ']

/-! ### No long run (spec/40_transmit.md R404 item 1) -/

/-- A run that a 0 ends does not begin with more 1s than it has. -/
theorem le_of_ones_prefix {n : Nat} {x : List Bool} (h : List.replicate n true <+: onesThen run (false :: x)) :
    n ≤ run := by
  by_contra hlt
  have hbit := h.getElem (i := run) (by simpa using hlt)
  rw [List.getElem_replicate] at hbit
  simp [onesThen] at hbit

/-- Eight 1s in a row do not use a shorter run that a 0 ends. -/
theorem eightOnes_infix_of_onesThen_false (h : run < 8) {x : List Bool}
    (hx : List.replicate 8 true <:+: onesThen run (false :: x)) : List.replicate 8 true <:+: x := by
  induction run with
  | zero => exact (List.infix_cons_iff.1 hx).resolve_left fun hp => absurd (le_of_ones_prefix (run := 0) hp) (by omega)
  | succ run ih =>
    exact ih (by omega) ((List.infix_cons_iff.1 hx).resolve_left fun hp =>
      absurd (le_of_ones_prefix (run := run + 1) hp) (by omega))

theorem Stuffs.no_eightOnes {x y : List Bool} (hs : Stuffs run x y) : ¬ List.replicate 8 true <:+: onesThen run y := by
  induction hs with
  | @nil run h =>
    intro hx
    have hlen : 8 ≤ run := by simpa [onesThen] using hx.length_le
    omega
  | zero h _ ih => exact fun hx => ih (eightOnes_infix_of_onesThen_false (by omega) hx)
  | seventh _ ih =>
    rw [onesThen_true]
    exact fun hx => ih (eightOnes_infix_of_onesThen_false (by omega) hx)
  | one _ _ ih => rwa [onesThen_true]

/-- Settles O21: the stuffed 0 ends each run at 7. -/
theorem stuffLeavesNoLongRun : Obligations.StuffLeavesNoLongRun := fun x => (stuffs_stuff x).no_eightOnes

/-! ### The number of stuffed bits (spec/40_transmit.md R404 item 2) -/

/-- The full 7s of a list of runs, `run` 1s being put before the first. -/
def fullSevens (run : Nat) : List (List Bool) → Nat
  | []      => 0
  | r :: rs => (run + r.length) / 7 + (rs.map fun r => r.length / 7).sum

theorem fullSevens_zero (rs : List (List Bool)) : fullSevens 0 rs = (rs.map fun r => r.length / 7).sum := by
  cases rs <;> simp [fullSevens]

theorem fullSevens_nil_cons (h : run < 7) (rs : List (List Bool)) : fullSevens run ([] :: rs) = fullSevens 0 rs := by
  rw [fullSevens_zero]
  simp [fullSevens, Nat.div_eq_of_lt h]

theorem fullSevens_modifyHead (run : Nat) (rs : List (List Bool)) :
    fullSevens run (rs.modifyHead (List.cons true)) = fullSevens (run + 1) rs := by
  cases rs <;> simp [fullSevens, Nat.add_right_comm, Nat.add_assoc]

theorem fullSevens_seven {rs : List (List Bool)} (h : rs ≠ []) : fullSevens 7 rs = fullSevens 0 rs + 1 := by
  obtain ⟨r, rs, rfl⟩ := List.exists_cons_of_ne_nil h
  simp only [fullSevens]
  omega

theorem runs_false_cons (x : List Bool) : (false :: x).splitOn false = [] :: x.splitOn false :=
  List.splitOn_cons_eq_if_modifyHead _ _

theorem runs_true_cons (x : List Bool) :
    (true :: x).splitOn false = (x.splitOn false).modifyHead (List.cons true) :=
  List.splitOn_cons_eq_if_modifyHead _ _

theorem Stuffs.length_eq {x y : List Bool} (hs : Stuffs run x y) :
    y.length = x.length + fullSevens run (x.splitOn false) := by
  induction hs with
  | nil h => simp [fullSevens, Nat.div_eq_of_lt h]
  | zero h _ ih =>
    rw [runs_false_cons, fullSevens_nil_cons h, List.length_cons, List.length_cons, ih]
    omega
  | seventh _ ih =>
    rw [runs_true_cons, fullSevens_modifyHead, fullSevens_seven (List.splitOn_ne_nil _ _)]
    simp only [List.length_cons, ih]
    omega
  | one _ _ ih =>
    rw [runs_true_cons, fullSevens_modifyHead, List.length_cons, List.length_cons, ih]
    omega

/-- Settles O22: one stuffed bit for each full 7 of a run, and the bound of `stuffFrom_length_le`. -/
theorem stuffedBitCount : Obligations.StuffedBitCount := fun x =>
  ⟨(stuffs_stuff x).length_eq.trans (by rw [fullSevens_zero]),
    by simpa [stuff] using stuffFrom_length_le (run := 0) (by omega) x⟩

/-! ### How a stuffed list ends (spec/40_transmit.md R404 item 3) -/

theorem trailingOnes_append (a x : List Bool) :
    trailingOnes (a ++ x) = if trailingOnes x = x.length then trailingOnes a + x.length else trailingOnes x := by
  simp only [trailingOnes, List.reverse_append, List.takeWhile_append, List.length_reverse, apply_ite List.length,
    List.length_append, Nat.add_comm]

theorem trailingOnes_append_false (a x : List Bool) : trailingOnes (a ++ false :: x) = trailingOnes x := by
  have hend : trailingOnes (a ++ [false]) = 0 := by simp [trailingOnes]
  rw [List.append_cons, trailingOnes_append, hend]
  split <;> omega

theorem trailingOnes_replicate (n : Nat) : trailingOnes (List.replicate n true) = n := by simp [trailingOnes]

@[simp] theorem trailingOnes_onesThen_nil (n : Nat) : trailingOnes (onesThen n []) = n := by
  rw [onesThen, List.append_nil, trailingOnes_replicate]

@[simp] theorem trailingOnes_onesThen_false (n : Nat) (x : List Bool) :
    trailingOnes (onesThen n (false :: x)) = trailingOnes x := trailingOnes_append_false _ x

/-- Seven 1s before a list: seven more at its end where it is all 1s, and else none. -/
theorem trailingOnes_onesThen_seven (x : List Bool) :
    trailingOnes (onesThen 7 x) = if trailingOnes x = x.length then 7 + x.length else trailingOnes x := by
  rw [onesThen, trailingOnes_append, trailingOnes_replicate]

theorem Stuffs.trailingOnes_eq {x y : List Bool} (hs : Stuffs run x y) :
    trailingOnes (onesThen run y) = trailingOnes (onesThen run x) % 7 := by
  induction hs with
  | nil h => simp [Nat.mod_eq_of_lt h]
  | zero _ _ ih => simpa using ih
  | seventh _ ih =>
    rw [onesThen_zero, onesThen_zero] at ih
    rw [onesThen_true, onesThen_true, trailingOnes_onesThen_false, trailingOnes_onesThen_seven, ih]
    split <;> omega
  | one _ _ ih => rwa [onesThen_true, onesThen_true]

theorem Stuffs.ends_in_stuffed {x y : List Bool} (hs : Stuffs run x y) (hpos : 0 < trailingOnes (onesThen run x))
    (hmod : trailingOnes (onesThen run x) % 7 = 0) : onesThen 7 [false] <:+ onesThen run y := by
  induction hs with
  | nil h =>
    rw [trailingOnes_onesThen_nil] at hpos hmod
    omega
  | zero _ _ ih =>
    rw [trailingOnes_onesThen_false] at hpos hmod
    exact List.suffix_append_of_suffix ((ih hpos hmod).trans (List.suffix_cons _ _))
  | @seventh x y hs ih =>
    rw [onesThen_true, trailingOnes_onesThen_seven] at hpos hmod
    rw [onesThen_true]
    obtain hx | hx := Nat.eq_zero_or_pos (trailingOnes x)
    · obtain rfl : x = [] := List.length_eq_zero_iff.1 (by split at hpos <;> omega)
      cases hs
      exact List.suffix_rfl
    · have hxmod : trailingOnes x % 7 = 0 := by split at hmod <;> omega
      exact List.suffix_append_of_suffix ((ih hx hxmod).trans (List.suffix_cons _ _))
  | one _ _ ih =>
    rw [onesThen_true] at hpos hmod ⊢
    exact ih hpos hmod

/-- Settles O23: each full 7 at the end of the list ends in a stuffed 0, and the 1s after it stay. -/
theorem stuffTrailingOnes : Obligations.StuffTrailingOnes := fun x =>
  ⟨(stuffs_stuff x).trailingOnes_eq, (stuffs_stuff x).ends_in_stuffed⟩

/-! ### Removing the stuffed bits (spec/40_transmit.md R404 item 4) -/

theorem destuffFrom_cons (h : run < 7) (b : Bool) (bs : List Bool) :
    destuffFrom run (b :: bs) = b :: destuffFrom (countRun run b) bs := if_neg h.ne

theorem destuffFrom_seven (b : Bool) (bs : List Bool) : destuffFrom 7 (b :: bs) = destuffFrom 0 bs := rfl

theorem removedFrom_cons (h : run < 7) (b : Bool) (bs : List Bool) :
    removedFrom run (b :: bs) = removedFrom (countRun run b) bs := if_neg h.ne

theorem removedFrom_seven (b : Bool) (bs : List Bool) : removedFrom 7 (b :: bs) = b :: removedFrom 0 bs := rfl

@[simp] theorem countRun_true (run : Nat) : countRun run true = run + 1 := rfl

@[simp] theorem countRun_false (run : Nat) : countRun run false = 0 := rfl

theorem Stuffs.destuffFrom_eq {x y : List Bool} (hs : Stuffs run x y) : destuffFrom run y = x := by
  induction hs with
  | nil => rfl
  | zero h _ ih => rw [destuffFrom_cons h, countRun_false, ih]
  | seventh _ ih => rw [destuffFrom_cons (by omega), countRun_true, destuffFrom_seven, ih]
  | one h _ ih => rw [destuffFrom_cons (by omega), countRun_true, ih]

theorem Stuffs.removed_false {x y : List Bool} (hs : Stuffs run x y) : ∀ b ∈ removedFrom run y, b = false := by
  induction hs with
  | nil => nofun
  | zero h _ ih => rwa [removedFrom_cons h]
  | seventh _ ih =>
    rw [removedFrom_cons (by omega), countRun_true, removedFrom_seven]
    exact List.forall_mem_cons.2 ⟨rfl, ih⟩
  | one h _ ih => rwa [removedFrom_cons (by omega)]

/-- Settles O24: the counter of the removal loop follows that of the stuffing loop. -/
theorem destuffingInvertsStuffing : Obligations.DestuffingInvertsStuffing := fun x =>
  ⟨(stuffs_stuff x).destuffFrom_eq, (stuffs_stuff x).removed_false⟩

end Sys2Proof.Proofs
end

section
/-! PROOF. Receive (spec/41_receive.md). EDGE and OVERFLOW down to the rule for the decoder's state, and each rule on
each of its branches; what a desync leaves; what an EDGE changes; the acquisition of lock; the edges that the ideal
channel makes of a list of wire bits; and what the decoder stores, completes or drops of a whole frame. -/

namespace Sys2Proof.Proofs

open Sys2Proof Sys2Proof.Config Sys2Proof.Machine Sys2Proof.Safety Sys2Proof.Laws

variable {s t u : State} {i : Instr} {o : OpOutcome} {r : Option Response} {v dir : Bool} {c : IntervalClass}
  {iv : BitVec 16}

/-! ### The classifier (spec/41_receive.md R511) -/

theorem classify_eq_short_iff (p : Params) (iv : Nat) :
    classify p iv = .short ↔ p.shortMin ≤ iv ∧ iv ≤ p.shortMax := by
  unfold classify
  split
  · simp [*]
  · split <;> simp [*]

theorem classify_eq_bad_iff (p : Params) (iv : Nat) :
    classify p iv = .bad ↔ ¬ (p.shortMin ≤ iv ∧ iv ≤ p.shortMax) ∧ ¬ (p.longMin ≤ iv ∧ iv ≤ p.longMax) := by
  unfold classify
  split
  · simp [*]
  · split <;> simp [*]

/-- The windows of a legal parameter set do not overlap, so the order of the tests is not seen. -/
theorem classify_eq_long_iff {p : Params} (hl : p.legal = true) (iv : Nat) :
    classify p iv = .long ↔ p.longMin ≤ iv ∧ iv ≤ p.longMax := by
  obtain ⟨⟨-, -, hgap, -⟩, -⟩ := (legal_iff p).1 hl
  unfold classify
  split
  · simp only [reduceCtorEq, false_iff]
    omega
  · split <;> simp [*]

/-- Settles O27: one equivalence for each class. -/
theorem classifyWindows : Obligations.ClassifyWindows := fun p iv hl =>
  ⟨classify_eq_short_iff p iv, classify_eq_long_iff hl iv, classify_eq_bad_iff p iv⟩

/-! ### EDGE and OVERFLOW in each state (spec/41_receive.md R500, R501)

With `edge_data`, the converses of `edge_cases`. -/

theorem edge_idle (h : s.rxState = .idle) : exec (.edge dir iv) s = concludeRx (rxIdle dir s) := by
  simp [exec, execEdge, rxEdge, h]

theorem edge_sync (h : s.rxState = .sync) :
    exec (.edge dir iv) s = concludeRx (rxSync (classify s.params iv.toNat) s) := by
  simp [exec, execEdge, rxEdge, h]

/-- Settles O28: the IDLE rule reads the direction alone. -/
theorem edgeInIdle : Obligations.EdgeInIdle := fun _ _ h => ⟨edge_idle h, edge_idle h⟩

/-- An interval that is not LONG ends the acquisition. -/
theorem rxSync_notLong (h : c ≠ .long) : rxSync c s = .ok (s.toIdle, .desync .syncNotLong []) := by
  cases c with
  | long => exact absurd rfl h
  | short | bad => rfl

/-- Settles O29: the SYNC rule on each of its branches. -/
theorem edgeInSync : Obligations.EdgeInSync := by
  intro s dir iv h
  rw [edge_sync h]
  refine ⟨fun hc => ?_, fun hc hn => ?_, fun hc hn hf => ?_, fun hc hn hf => ?_⟩
  · rw [rxSync_notLong hc]; rfl
  · rw [hc, rxSync_count hn]; rfl
  · rw [hc, rxSync_refuse (by omega) hf]; rfl
  · rw [hc, rxSync_lock (by omega) hf]; rfl

/-! The DATA rule on each of its branches but the last (spec/41_receive.md R525). -/

theorem rxData_firstHalf (hp : s.pendingHalf = false) : rxData .short s = .ok (s.setPending true, .ok []) :=
  if_neg (by simp [hp])

theorem rxData_secondHalf (hp : s.pendingHalf = true) : rxData .short s = writeBit s.lastBit (s.setPending false) :=
  if_pos hp

theorem rxData_longAfterShort (hp : s.pendingHalf = true) :
    rxData .long s = .ok (s.toIdle, .desync .dataLongAfterShort []) := if_pos hp

theorem rxData_flip (hp : s.pendingHalf = false) :
    rxData .long s = writeBit (!s.lastBit) (s.setLast (!s.lastBit)) := if_neg (by simp [hp])

/-- Settles O30: the DATA rule on each of its branches. -/
theorem edgeInData : Obligations.EdgeInData := by
  intro s dir iv h
  rw [edge_data h]
  refine ⟨fun hc hp => ?_, fun hc hp => ?_, fun hc hp => ?_, fun hc hp => ?_, fun hc => ?_⟩
  · rw [hc, rxData_firstHalf hp]; rfl
  · rw [hc, rxData_secondHalf hp]; rfl
  · rw [hc, rxData_longAfterShort hp]; rfl
  · rw [hc, rxData_flip hp]; rfl
  · rw [hc]; rfl

/-! ### A recovered bit (spec/41_receive.md R525, R540) -/

/-- A recovered bit goes to `WriteBit`. -/
theorem edge_recovers (hd : s.rxState = .data) (hv : Recovers s (classify s.params iv.toNat) v) :
    exec (.edge dir iv) s = concludeRx (writeBit v (afterRecovery v s)) := by
  rw [edge_data hd, rxData_recovers hv]

theorem edge_stores (hd : s.rxState = .data) (hv : Recovers s (classify s.params iv.toNat) v) (hr : s.run.toNat ≠ 7)
    (hw : s.wrBits.toNat < frameBits s) :
    exec (.edge dir iv) s = .next (((afterRecovery v s).storeBit v).record (.ok [.bit v]) none) := by
  rw [edge_recovers hd hv, writeBit_store (s := afterRecovery v s) v hr hw, concludeRx_ok]

theorem edge_discards (hd : s.rxState = .data) (hv : Recovers s (classify s.params iv.toNat) false)
    (hr : s.run.toNat = 7) :
    exec (.edge dir iv) s = .next ((afterRecovery false s).dropStuffed.record (.ok [.stuffed]) none) := by
  rw [edge_recovers hd hv, writeBit_stuffed (s := afterRecovery false s) hr, concludeRx_ok]

theorem edge_completes (hd : s.rxState = .data) (hv : Recovers s (classify s.params iv.toNat) true)
    (hr : s.run.toNat = 7) :
    exec (.edge dir iv) s = .next ((afterRecovery true s).finishFrame.record (.ok [.frameComplete]) none) := by
  rw [edge_recovers hd hv, writeBit_terminator (s := afterRecovery true s) hr, concludeRx_ok]

theorem edge_overfills (hd : s.rxState = .data) (hv : Recovers s (classify s.params iv.toNat) v)
    (hr : s.run.toNat ≠ 7) (hw : s.wrBits.toNat = frameBits s) :
    exec (.edge dir iv) s = .next ((afterRecovery v s).toIdle.record (.desync .capacity []) none) := by
  rw [edge_recovers hd hv, writeBit_full (s := afterRecovery v s) v hr hw, concludeRx_ok]

/-- Settles O31: the store reads as `frameBit_storeBit` says. -/
theorem edgeStoresBit : Obligations.EdgeStoresBit := by
  intro s dir v iv hd hv hr hw
  refine ⟨_, edge_stores hd hv hr hw, ?_, fun i hi => ?_, rfl, rfl, hd, rfl, rfl, rfl, rfl,
    ⟨rfl, rfl, rfl, rfl, rfl⟩, rfl, rfl, rfl, rfl, rfl⟩
  · simp [frameBit_storeBit]
  · simp [frameBit_storeBit, hi]

/-- Settles O32: the run test comes before the capacity test. -/
theorem edgeDiscardsStuffedBit : Obligations.EdgeDiscardsStuffedBit := fun _ _ _ => edge_discards

/-- Settles O33: with seven bits stored the retraction does not wrap. -/
theorem edgeCompletesFrame : Obligations.EdgeCompletesFrame := fun _ _ _ hd hv hr h7 =>
  ⟨_, edge_completes hd hv hr, rfl, BitVec.toNat_sub_of_le (y := 7#16) h7, rfl⟩

/-- Settles O34: the store is full. -/
theorem edgeDesyncsWhenFull : Obligations.EdgeDesyncsWhenFull := fun _ _ _ _ => edge_overfills

/-! ### OVERFLOW (spec/41_receive.md R501, R548) -/

/-- Settles O35: an OVERFLOW's interval is in neither window. -/
theorem overflowRule : Obligations.OverflowRule := by
  intro s hl
  have hx : exec .overflow s = concludeRx (asOverflow (rxOverflow s)) := rfl
  rw [hx, rxOverflow_eq hl]
  refine ⟨fun h => ?_, fun h => ?_, fun h => ?_⟩ <;> rw [h] <;> rfl

theorem overflow_toIdle (hl : s.params.legal = true) : ∃ t, exec .overflow s = .next t ∧ t.rxState = .idle := by
  obtain ⟨hidle, hsync, hdata⟩ := overflowRule s hl
  cases hs : s.rxState with
  | idle => exact ⟨_, hidle hs, hs⟩
  | sync => exact ⟨_, hsync hs, rfl⟩
  | data => exact ⟨_, hdata hs, rfl⟩

/-- Settles O51: TAKE clears `complete` where it finds a frame, whose bytes lie in the store. -/
theorem decoderIsNeverStuck : Obligations.DecoderIsNeverStuck := by
  refine fun s hinv => ⟨overflow_toIdle hinv.legal, fun len => ?_⟩
  cases hc : s.complete with
  | false => exact ⟨_, take_noFrame hc, hc⟩
  | true => exact ⟨_, take_frame hc (takeCount_le_bufBytes hinv len), rfl⟩

/-! ### What a desync leaves (spec/41_receive.md R530) -/

/-- `u` is `s` after a desync of cause `c`: in IDLE, and otherwise as before or, for a full store, as the DATA rule left
it. -/
def DesyncOf (c : DesyncCause) (s u : State) : Prop :=
  (c ≠ .capacity ∧ u = s.toIdle) ∨ (c = .capacity ∧ ∃ v, u = (afterRecovery v s).toIdle)

/-- A decoder rule ends in a desync only by abandoning the frame. -/
def DesyncsToIdle (f : State → RxResult) : Prop :=
  ∀ {s u : State} {c : DesyncCause} {ls : List Label}, f s = .ok (u, .desync c ls) → DesyncOf c s u

theorem rxIdle_desyncsToIdle (dir : Bool) : DesyncsToIdle (rxIdle dir) := by
  intro s u c ls h
  obtain ⟨-, -, ho⟩ | ⟨-, -, ho⟩ := rxIdle_cases h <;> cases ho

theorem rxSync_desyncsToIdle (c : IntervalClass) : DesyncsToIdle (rxSync c) := by
  intro s u c ls h
  obtain ⟨-, rfl, ho⟩ | ⟨-, -, -, ho⟩ | ⟨-, -, -, rfl, ho⟩ | ⟨-, -, -, -, ho⟩ := rxSync_cases h <;> cases ho
  all_goals exact .inl ⟨nofun, rfl⟩

theorem rxData_desyncsToIdle (c : IntervalClass) : DesyncsToIdle (rxData c) := by
  intro s u c ls h
  obtain ⟨-, -, -, ho⟩ | ⟨-, -, rfl, ho⟩ | ⟨-, rfl, ho⟩ | ⟨v, -, hw⟩ := rxData_cases h
  · cases ho
  · cases ho
    exact .inl ⟨nofun, rfl⟩
  · cases ho
    exact .inl ⟨nofun, rfl⟩
  · obtain ⟨-, -, -, ho⟩ | ⟨-, -, -, ho⟩ | ⟨-, -, rfl, ho⟩ | ⟨-, -, -, ho⟩ := writeBit_cases hw <;> cases ho
    exact .inr ⟨rfl, v, rfl⟩

/-- The label of an OVERFLOW makes no desync of another outcome. -/
theorem labelOverflow_desync {cause : DesyncCause} {ls : List Label} (h : labelOverflow o = .desync cause ls) :
    ∃ ls', o = .desync cause ls' := by
  cases o <;> cases h
  exact ⟨_, rfl⟩

/-- An operation whose event is a desync is an EDGE or an OVERFLOW, and abandons the frame. -/
theorem exec_desync {cause : DesyncCause} {ls : List Label} {e : Event} (h : exec i s = .next t)
    (he : t.history.head? = some e) (ho : e.outcome = .desync cause ls) :
    ∃ u, t = u.record (.desync cause ls) none ∧ DesyncOf cause s u := by
  have event {u : State} {o : OpOutcome} {r : Option Response} (hu : (u.record o r).history.head? = some e) :
      o = .desync cause ls := by cases hu; exact ho
  cases i with
  | edge dir iv =>
    obtain ⟨u, o, rfl, hx⟩ := edge_cases h
    cases event he
    obtain ⟨-, hx⟩ | ⟨-, hx⟩ | ⟨-, hx⟩ := hx
    · exact ⟨u, rfl, rxIdle_desyncsToIdle _ hx⟩
    · exact ⟨u, rfl, rxSync_desyncsToIdle _ hx⟩
    · exact ⟨u, rfl, rxData_desyncsToIdle _ hx⟩
  | overflow =>
    obtain ⟨u, o, rfl, hx⟩ := overflow_cases h
    obtain ⟨ls', rfl⟩ := labelOverflow_desync (event he)
    refine ⟨u, by rw [event he], ?_⟩
    obtain ⟨-, -, hx⟩ | ⟨-, hx⟩ | ⟨-, hx⟩ := hx
    · cases hx
    · exact rxSync_desyncsToIdle _ hx
    · exact rxData_desyncsToIdle _ hx
  | tick => obtain ⟨-, rfl⟩ | ⟨-, p, -, rfl⟩ := tick_cases h <;> cases event he
  | txWrite idx data => obtain ⟨-, rfl⟩ | ⟨-, -, rfl⟩ | ⟨-, -, rfl⟩ := txWrite_cases h <;> cases event he
  | txStart len => obtain ⟨-, rfl⟩ | ⟨-, -, rfl⟩ | ⟨-, -, rfl⟩ := txStart_cases h <;> cases event he
  | take len => obtain ⟨-, rfl⟩ | ⟨-, -, rfl⟩ := take_cases h <;> cases event he
  | reset =>
    cases (reset_next s).symm.trans h
    cases event he

/-- Settles O37: the two forms of `DesyncOf`. -/
theorem desyncWritesOnlyTheState : Obligations.DesyncWritesOnlyTheState := by
  intro s t i c ls e h he ho
  obtain ⟨u, rfl, ⟨-, rfl⟩ | ⟨hc, v, rfl⟩⟩ := exec_desync h (by rw [he]; rfl) ho
  · exact ⟨rfl, rfl, rfl, rfl, rfl, rfl, ⟨rfl, rfl, rfl, rfl, rfl⟩, rfl, fun _ => ⟨rfl, rfl⟩⟩
  · exact ⟨rfl, rfl, rfl, rfl, rfl, rfl, ⟨rfl, rfl, rfl, rfl, rfl⟩, rfl, fun hne => absurd hc hne⟩

/-! ### What an EDGE changes (spec/41_receive.md R500, spec/20_memory.md R211) -/

/-- A recovered bit that is neither stuffed nor the terminator's last goes to the cursor, if it is in the store. -/
theorem edgeStoresAt_eq (hd : s.rxState = .data) (hv : Recovers s (classify s.params iv.toNat) v)
    (hr : s.run.toNat ≠ 7) (hw : s.wrBits.toNat < frameBits s) : edgeStoresAt iv s = some s.wrBits.toNat :=
  if_pos ⟨hd, hv.imp (fun h => ⟨h.1, h.2.1⟩) fun h => ⟨h.1, h.2.1⟩, hr, hw⟩

theorem edge_keeps_other_bits {a : Nat} (h : exec (.edge dir iv) s = .next t) (ha : edgeStoresAt iv s ≠ some a) :
    frameBit t a = frameBit s a := by
  obtain ⟨u, o, rfl, ⟨-, hx⟩ | ⟨-, hx⟩ | ⟨hd, hx⟩⟩ := edge_cases h
  · obtain ⟨-, rfl, -⟩ | ⟨-, rfl, -⟩ := rxIdle_cases hx <;> rfl
  · obtain ⟨-, rfl, -⟩ | ⟨-, -, rfl, -⟩ | ⟨-, -, -, rfl, -⟩ | ⟨-, -, -, rfl, -⟩ := rxSync_cases hx <;> rfl
  · obtain ⟨-, -, rfl, -⟩ | ⟨-, -, rfl, -⟩ | ⟨-, rfl, -⟩ | ⟨v, hv, hw⟩ := rxData_cases hx
    case inr.inr.inr =>
      obtain ⟨-, -, rfl, -⟩ | ⟨-, -, rfl, -⟩ | ⟨-, -, rfl, -⟩ | ⟨hr, hlt, rfl, -⟩ := writeBit_cases hw
      case inr.inr.inr =>
        rw [edgeStoresAt_eq hd hv hr hlt] at ha
        rw [frameBit_record, frameBit_storeBit, if_neg fun he => ha (congrArg some he.symm), frameBit_afterRecovery]
      all_goals rfl
    all_goals rfl

/-- The DATA rule does not write `sync_n`. -/
theorem rxData_syncN (hx : rxData c s = .ok (u, o)) : u.syncN = s.syncN := by
  obtain ⟨-, -, rfl, -⟩ | ⟨-, -, rfl, -⟩ | ⟨-, rfl, -⟩ | ⟨v, -, hw⟩ := rxData_cases hx
  case inr.inr.inr =>
    obtain ⟨-, -, rfl, -⟩ | ⟨-, -, rfl, -⟩ | ⟨-, -, rfl, -⟩ | ⟨-, -, rfl, -⟩ := writeBit_cases hw <;> rfl
  all_goals rfl

/-- The IDLE rule does not write `pending_half`. -/
theorem rxIdle_pendingHalf (hx : rxIdle dir s = .ok (u, o)) : u.pendingHalf = s.pendingHalf := by
  obtain ⟨-, rfl, -⟩ | ⟨-, rfl, -⟩ := rxIdle_cases hx <;> rfl

theorem edge_syncN (hd : s.rxState = .data) (h : exec (.edge dir iv) s = .next t) : t.syncN = s.syncN := by
  rw [edge_data hd] at h
  obtain ⟨u, o, hx, rfl⟩ := concludeRx_next h
  rw [record_syncN, rxData_syncN hx]

theorem edge_pendingHalf (hi : s.rxState = .idle) (h : exec (.edge dir iv) s = .next t) :
    t.pendingHalf = s.pendingHalf := by
  rw [edge_idle hi] at h
  obtain ⟨u, o, hx, rfl⟩ := concludeRx_next h
  rw [record_pendingHalf, rxIdle_pendingHalf hx]

theorem edge_next (hw : s.rxState = .data → s.wrBits.toNat ≤ frameBits s) :
    ∃ t, exec (.edge dir iv) s = .next t := by
  obtain ⟨u, o, hx⟩ := rxEdge_ok dir iv.toNat hw
  exact ⟨_, congrArg concludeRx hx⟩

/-- Settles O36: the transmitter's part is R234's. -/
theorem edgeCompletesWithItsFrame : Obligations.EdgeCompletesWithItsFrame := by
  intro s dir iv hw
  obtain ⟨t, ht⟩ := edge_next (dir := dir) (iv := iv) hw
  obtain ⟨htx, hmem, hbytes, hdraws, houtside, -⟩ := receiveOpsLeaveTransmitter _ s t rfl ht
  exact ⟨t, ht, fun a => edge_keeps_other_bits ht, fun hne hd => hne (edge_syncN hd ht),
    fun hne hi => hne (edge_pendingHalf hi ht),
    fun hne => ((edge_complete ht).resolve_left hne).2.1, htx, hmem, hbytes, hdraws, houtside⟩

/-! ### Runs of operations -/

theorem execAll_append {is js : List Instr} (h : execAll is s = .next t) : execAll (is ++ js) s = execAll js t := by
  induction is generalizing s with
  | nil => cases h; rfl
  | cons i is ih =>
    obtain ⟨m, hm, h⟩ := execAll_cons_next.1 h
    simp only [List.cons_append, execAll, hm, ih h]

theorem execAll_cons {is : List Instr} (h : exec i s = .next t) : execAll (i :: is) s = execAll is t := by
  simp only [execAll, h]

theorem execAll_singleton (i : Instr) (s : State) : execAll [i] s = exec i s := by
  simp only [execAll]
  cases exec i s <;> rfl

theorem execAll_params {is : List Instr} (h : execAll is s = .next t) : t.params = s.params := by
  induction is generalizing s with
  | nil => cases h; rfl
  | cons i is ih =>
    obtain ⟨m, hm, h⟩ := execAll_cons_next.1 h
    exact (ih h).trans (exec_params hm)

theorem exec_history (h : exec i s = .next t) : s.history <:+ t.history := by
  obtain ⟨u, o, r, rfl, happ⟩ := exec_applied h
  rw [record_history, happ.outside.history]
  exact List.suffix_cons _ _

theorem execAll_history {is : List Instr} (h : execAll is s = .next t) : s.history <:+ t.history := by
  induction is generalizing s with
  | nil => cases h; exact List.suffix_rfl
  | cons i is ih =>
    obtain ⟨m, hm, h⟩ := execAll_cons_next.1 h
    exact (exec_history hm).trans (ih h)

/-- What a list of EDGEs needs of a state to run to its end: the cursor is in the store while the decoder is in DATA. -/
def CursorInStore (s : State) : Prop := s.rxState = .data → s.wrBits.toNat ≤ frameBits s

theorem writeBit_cursorInStore (hl : s.params.legal = true) (hw : s.wrBits.toNat ≤ frameBits s)
    (hx : writeBit v s = .ok (u, o)) : CursorInStore u := by
  obtain ⟨-, -, rfl, -⟩ | ⟨-, -, rfl, -⟩ | ⟨-, -, rfl, -⟩ | ⟨-, hlt, rfl, -⟩ := writeBit_cases hx
  · nofun
  · exact fun _ => hw
  · nofun
  · exact fun _ => (storeBit_wrBits_toNat hl hlt v).trans_le hlt

theorem edge_cursorInStore (hl : s.params.legal = true) (hw : CursorInStore s) (hx : exec (.edge dir iv) s = .next t) :
    CursorInStore t := by
  obtain ⟨u, o, rfl, ⟨hs, hx⟩ | ⟨hs, hx⟩ | ⟨hd, hx⟩⟩ := edge_cases hx <;> show CursorInStore u
  · obtain ⟨-, rfl, -⟩ | ⟨-, rfl, -⟩ := rxIdle_cases hx
    · nofun
    · exact hw
  · obtain ⟨-, rfl, -⟩ | ⟨-, -, rfl, -⟩ | ⟨-, -, -, rfl, -⟩ | ⟨-, -, -, rfl, -⟩ := rxSync_cases hx
    · nofun
    · exact hw
    · nofun
    · exact fun _ => Nat.zero_le _
  · obtain ⟨-, -, rfl, -⟩ | ⟨-, -, rfl, -⟩ | ⟨-, rfl, -⟩ | ⟨v, -, hv⟩ := rxData_cases hx
    · exact hw
    · nofun
    · nofun
    · exact writeBit_cursorInStore (s := afterRecovery v s) hl (hw hd) hv

/-- The edges of a list of directions and intervals. -/
def edgeOps (es : List (Bool × BitVec 16)) : List Instr := es.map fun e => .edge e.1 e.2

theorem edgeOps_append (xs ys : List (Bool × BitVec 16)) : edgeOps (xs ++ ys) = edgeOps xs ++ edgeOps ys :=
  List.map_append

theorem execAll_edgeOps_next {es : List (Bool × BitVec 16)} (hl : s.params.legal = true) (hw : CursorInStore s) :
    ∃ t, execAll (edgeOps es) s = .next t := by
  induction es generalizing s with
  | nil => exact ⟨s, rfl⟩
  | cons e es ih =>
    obtain ⟨m, hm⟩ := edge_next (dir := e.1) (iv := e.2) hw
    obtain ⟨t, ht⟩ := ih (exec_params hm ▸ hl) (edge_cursorInStore hl hw hm)
    exact ⟨t, execAll_cons_next.2 ⟨m, hm, ht⟩⟩

/-! ### Acquiring lock (spec/41_receive.md R515, R520, R521) -/

/-- `s` with the fields that edges outside DATA write, up to the lock. -/
def acquiring (q : RxState) (n : BitVec 3) (es : List Event) (s : State) : State :=
  { s with rxState := q, syncN := n, history := es }

theorem edge_starts (h : s.rxState = .idle) :
    ∃ hist, exec (.edge true iv) s = .next (acquiring .sync 1#3 hist s) := ⟨_, edge_idle h⟩

/-- Edges with LONG intervals are counted while the count fits its three bits. -/
theorem syncEdges_count {es : List (Bool × BitVec 16)} (hes : ∀ e ∈ es, classify s.params e.2.toNat = .long)
    (n : BitVec 3) (hist : List Event) (hn : n.toNat + es.length ≤ 7) :
    ∃ m hist', execAll (edgeOps es) (acquiring .sync n hist s) = .next (acquiring .sync m hist' s)
      ∧ m.toNat = n.toNat + es.length := by
  induction es generalizing n hist with
  | nil => exact ⟨n, hist, rfl, rfl⟩
  | cons e es ih =>
    obtain ⟨he, hes⟩ := List.forall_mem_cons.1 hes
    rw [List.length_cons] at hn
    have hsucc : (n + 1#3).toNat = n.toNat + 1 := BitVec.toNat_add_of_lt (y := 1#3) (by simp; omega)
    have hx : exec (.edge e.1 e.2) (acquiring .sync n hist s) = .next _ :=
      ((edgeInSync (acquiring .sync n hist s) e.1 e.2 rfl).2.1 he (show n.toNat + 1 < 8 by omega))
    obtain ⟨m, hist', hm, hcount⟩ := ih hes (n + 1#3) _ (by omega)
    refine ⟨m, hist', (execAll_cons hx).trans hm, ?_⟩
    rw [hcount, hsucc, List.length_cons]
    omega

/-- A rising edge in IDLE and then fewer than seven LONG intervals. -/
theorem acquisition_counts {es : List (Bool × BitVec 16)} (h : s.rxState = .idle)
    (hes : ∀ e ∈ es, classify s.params e.2.toNat = .long) (hlen : es.length < 7) :
    ∃ n hist, execAll (.edge true iv :: edgeOps es) s = .next (acquiring .sync n hist s)
      ∧ n.toNat = es.length + 1 := by
  obtain ⟨hist, hx⟩ := edge_starts (iv := iv) h
  obtain ⟨n, hist', hm, hn⟩ := syncEdges_count hes 1#3 hist (by simp; omega)
  exact ⟨n, hist', (execAll_cons hx).trans hm, hn.trans (Nat.add_comm 1 _)⟩

/-- The seventh LONG interval is the eighth edge's: from there on the decoder's answer is the SYNC rule's. -/
theorem acquisition_eighth {es : List (Bool × BitVec 16)} (h : s.rxState = .idle)
    (hes : ∀ e ∈ es, classify s.params e.2.toNat = .long) (hlen : es.length = 7) :
    ∃ n hist, n.toNat = 7
      ∧ execAll (.edge true iv :: edgeOps es) s = concludeRx (rxSync .long (acquiring .sync n hist s)) := by
  obtain rfl | ⟨es, e, rfl⟩ := List.eq_nil_or_concat' es
  · cases hlen
  obtain ⟨hes, he⟩ := List.forall_mem_append.1 hes
  rw [List.length_append] at hlen
  obtain ⟨n, hist, hm, hn⟩ := acquisition_counts (iv := iv) h hes (Nat.lt_of_succ_le hlen.le)
  refine ⟨n, hist, hn.trans hlen, ?_⟩
  rw [edgeOps_append, ← List.cons_append, execAll_append hm, edgeOps, List.map_singleton, execAll_singleton,
    edge_sync rfl]
  exact congrArg (fun c => concludeRx (rxSync c (acquiring .sync n hist s))) (he e (List.mem_singleton_self e))

theorem acquisition_locks {es : List (Bool × BitVec 16)} (h : s.rxState = .idle) (hc : s.complete = false)
    (hes : ∀ e ∈ es, classify s.params e.2.toNat = .long) (hlen : es.length = 7) :
    ∃ n hist, execAll (.edge true iv :: edgeOps es) s = .next (acquiring .data n hist s).acquireLock := by
  obtain ⟨n, hist, hn, hx⟩ := acquisition_eighth (iv := iv) h hes hlen
  rw [hx, rxSync_lock (s := acquiring .sync n hist s) (show ¬ n.toNat + 1 < 8 by omega) hc]
  exact ⟨n, _, rfl⟩

theorem acquisition_refused {es : List (Bool × BitVec 16)} (h : s.rxState = .idle) (hc : s.complete = true)
    (hes : ∀ e ∈ es, classify s.params e.2.toNat = .long) (hlen : es.length = 7) :
    ∃ n hist, execAll (.edge true iv :: edgeOps es) s = .next (acquiring .idle n hist s) := by
  obtain ⟨n, hist, hn, hx⟩ := acquisition_eighth (iv := iv) h hes hlen
  rw [hx, rxSync_refuse (s := acquiring .sync n hist s) (show ¬ n.toNat + 1 < 8 by omega) hc]
  exact ⟨n, _, rfl⟩

/-- Settles O56: `acquiring` names all that these edges write before the lock. -/
theorem lockNeedsSevenLongIntervals : Obligations.LockNeedsSevenLongIntervals := by
  refine fun s iv es h hes => ⟨fun hlen => ?_, fun hlen => ?_⟩
  · cases hc : s.complete with
    | false =>
      obtain ⟨n, hist, hx⟩ := acquisition_locks (iv := iv) h hc hes hlen
      exact ⟨_, hx, fun _ => ⟨rfl, rfl, rfl, rfl, rfl⟩, nofun, rfl⟩
    | true =>
      obtain ⟨n, hist, hx⟩ := acquisition_refused (iv := iv) h hc hes hlen
      exact ⟨_, hx, nofun, fun _ => ⟨rfl, rfl, rfl, hc⟩, rfl⟩
  · obtain ⟨n, hist, hx, hn⟩ := acquisition_counts (iv := iv) h hes hlen
    exact ⟨_, hx, rfl, hn, rfl, fun dir iv' hc => ⟨_, (edgeInSync _ dir iv' rfl).1 hc, rfl⟩⟩

/-! ### The ideal channel (spec/40_transmit.md R415)

Each wire bit after the first is one or two edges, by whether it repeats the bit before it. -/

section

variable {p : Params} {prev : Bool}

/-- The edges of wire bit `b` after wire bit `prev`: two a half period apart for a repeated bit, else one after a whole
period. -/
def bitEdges (p : Params) (prev b : Bool) : List (Bool × BitVec 16) :=
  if b = prev then [(!b, BitVec.ofNat 16 p.halfUs), (b, BitVec.ofNat 16 p.halfUs)]
  else [(b, BitVec.ofNat 16 (2 * p.halfUs))]

/-- The edges of a list of wire bits after wire bit `prev`. -/
def wireEdges (p : Params) (prev : Bool) : List Bool → List (Bool × BitVec 16)
  | []      => []
  | b :: bs => bitEdges p prev b ++ wireEdges p b bs

theorem wireEdges_append (p : Params) (prev : Bool) (x y : List Bool) :
    wireEdges p prev (x ++ y) = wireEdges p prev x ++ wireEdges p (x.getLastD prev) y := by
  induction x generalizing prev with
  | nil => rfl
  | cons b x ih => simp only [List.cons_append, wireEdges, ih, List.append_assoc, List.getLastD_cons]

theorem timed_iff (p : Params) : p.timed = true ↔
    (p.shortMin ≤ p.halfUs ∧ p.halfUs ≤ p.shortMax) ∧ p.longMin ≤ 2 * p.halfUs ∧ 2 * p.halfUs ≤ p.longMax := by
  simp [Params.timed]

/-- The channel's intervals as the decoder reads them: half a period is SHORT, a whole one LONG. -/
theorem classify_channel (hl : p.legal = true) (ht : p.timed = true) :
    classify p (BitVec.ofNat 16 p.halfUs).toNat = .short
      ∧ classify p (BitVec.ofNat 16 (2 * p.halfUs)).toNat = .long := by
  obtain ⟨hshort, hlong⟩ := (timed_iff p).1 ht
  obtain ⟨⟨-, -, -, -, hmax, hcap⟩, -⟩ := (legal_iff p).1 hl
  have hhalf : (BitVec.ofNat 16 p.halfUs).toNat = p.halfUs := Nat.mod_eq_of_lt (by omega)
  have hwhole : (BitVec.ofNat 16 (2 * p.halfUs)).toNat = 2 * p.halfUs := Nat.mod_eq_of_lt (by omega)
  rw [hhalf, hwhole]
  exact ⟨(classify_eq_short_iff p _).2 hshort, (classify_eq_long_iff hl _).2 hlong⟩

/-- Up to a whole period no interval is cut to `INTERVAL_MAX`. -/
theorem edgeInterval_some (hl : p.legal = true) (ht : p.timed = true) (t : Nat) {k : Nat} (hk : k ≤ 2) :
    edgeInterval p (t + k) (some t) = k * p.halfUs := by
  obtain ⟨-, hlong⟩ := (timed_iff p).1 ht
  obtain ⟨⟨-, -, -, -, hmax, -⟩, -⟩ := (legal_iff p).1 hl
  have hle := Nat.mul_le_mul_right p.halfUs hk
  simp only [edgeInterval, Nat.add_sub_cancel_left]
  omega

/-- One wire bit on the channel, from the middle of the wire bit before it to its own middle. -/
theorem idealEdgesFrom_bit (hl : p.legal = true) (ht : p.timed = true) (t : Nat) (prev b : Bool) (ls : List Bool) :
    idealEdgesFrom p (t + 1) prev (some t) (bitLevels b ++ ls)
      = edgeOps (bitEdges p prev b) ++ idealEdgesFrom p (t + 3) b (some (t + 2)) ls := by
  have hhalf (t : Nat) : edgeInterval p (t + 1) (some t) = p.halfUs := by
    simpa using edgeInterval_some hl ht t (k := 1) (by omega)
  have hwhole : edgeInterval p (t + 2) (some t) = 2 * p.halfUs := edgeInterval_some hl ht t le_rfl
  rw [bitLevels_eq]
  by_cases hb : b = prev
  · simp [hb, idealEdgesFrom, bitEdges, edgeOps, hhalf]
  · obtain rfl : prev = !b := Bool.eq_not.2 (Ne.symm hb)
    simp [idealEdgesFrom, bitEdges, edgeOps, hwhole]

/-- From the middle of a wire bit `prev` on, the channel's edges are the wire bits'. -/
theorem idealEdgesFrom_eq (hl : p.legal = true) (ht : p.timed = true) (t : Nat) (prev : Bool) (x : List Bool) :
    idealEdgesFrom p (t + 1) prev (some t) (x.flatMap bitLevels) = edgeOps (wireEdges p prev x) := by
  induction x generalizing prev t with
  | nil => rfl
  | cons b x ih => rw [List.flatMap_cons, idealEdgesFrom_bit hl ht, ih, wireEdges, edgeOps_append]

/-- The preamble's edges after its first, up to the lock: seven, each a whole period after the one before. -/
def lockEdgesAfterFirst (p : Params) : List (Bool × BitVec 16) :=
  [false, true, false, true, false, true, false].map fun b => (b, BitVec.ofNat 16 (2 * p.halfUs))

/-- A frame on the channel: from a high line a falling edge; the preamble's eight edges, the first rising; and the edges
of the wire bits after the preamble, whose last bit is 0 (spec/41_receive.md R522). -/
theorem idealEdges_eq (hl : p.legal = true) (ht : p.timed = true) (l0 : Bool) (q : List Byte) :
    ∃ iv iv', idealEdges p l0 (txLevels q) = edgeOps (if l0 then [(false, iv)] else [])
      ++ (.edge true iv' :: edgeOps (lockEdgesAfterFirst p))
      ++ edgeOps (wireEdges p false (stuff (payloadBits q) ++ terminatorBits)) := by
  have hlevels : txLevels q = false :: true :: ([false, true, false, true, false, true, false]
      ++ (stuff (payloadBits q) ++ terminatorBits)).flatMap bitLevels := by
    simp [txLevels, wireBits]
  have hedges : wireEdges p true ([false, true, false, true, false, true, false]
      ++ (stuff (payloadBits q) ++ terminatorBits))
      = lockEdgesAfterFirst p ++ wireEdges p false (stuff (payloadBits q) ++ terminatorBits) := rfl
  have hrest := idealEdgesFrom_eq hl ht 1 true
    ([false, true, false, true, false, true, false] ++ (stuff (payloadBits q) ++ terminatorBits))
  rw [hedges] at hrest
  refine ⟨BitVec.ofNat 16 p.intervalMax, BitVec.ofNat 16 (edgeInterval p 1 (if l0 then some 0 else none)), ?_⟩
  rw [hlevels]
  cases l0 <;> simp only [idealEdges, idealEdgesFrom, hrest] <;> simp [edgeOps, edgeInterval]

end

/-! ### One wire bit in DATA (spec/41_receive.md R525, R545) -/

/-- In DATA, from the middle of a wire bit, the edges of the next wire bit recover it: `WriteBit` gets it, with one more
event recorded for a repeated bit. -/
theorem execAll_bitEdges (hl : u.params.legal = true) (ht : u.params.timed = true) (hd : u.rxState = .data)
    (hp : u.pendingHalf = false) (b : Bool) :
    ∃ hist, u.history <:+ hist ∧ execAll (edgeOps (bitEdges u.params u.lastBit b)) u
      = concludeRx (writeBit b (afterRecovery b { u with history := hist })) := by
  obtain ⟨hshort, hlong⟩ := classify_channel hl ht
  by_cases hb : b = u.lastBit
  · have hx : exec (.edge (!b) (BitVec.ofNat 16 u.params.halfUs)) u
        = .next ((u.setPending true).record (.ok []) none) := by
      rw [edge_data hd, hshort, rxData_firstHalf hp, concludeRx_ok]
    refine ⟨((u.setPending true).record (.ok []) none).history, List.suffix_cons _ _, ?_⟩
    rw [bitEdges, if_pos hb, edgeOps, List.map_cons, execAll_cons hx, List.map_singleton, execAll_singleton]
    exact edge_recovers (s := (u.setPending true).record (.ok []) none) hd (.inl ⟨hshort, rfl, hb⟩)
  · refine ⟨u.history, List.suffix_rfl, ?_⟩
    rw [bitEdges, if_neg hb, edgeOps, List.map_singleton, execAll_singleton]
    exact edge_recovers hd (.inr ⟨hlong, hp, Bool.eq_not.2 hb⟩)

/-! ### A frame in reception (spec/41_receive.md R540 to R546) -/

/-- The bits of `x` stand in the frame store from its beginning. -/
def HoldsBits (x : List Bool) (u : State) : Prop := ∀ (i : Nat) (b : Bool), x[i]? = some b → frameBit u i = b

/-- Since the lock, which came after `s`, the bits `x` are stored, the decoder's run is `n`, and `last` is the last wire
bit. -/
structure Receiving (s : State) (x : List Bool) (n : Nat) (last : Bool) (u : State) : Prop where
  inData   : u.rxState = .data
  noHalf   : u.pendingHalf = false
  lastBit  : u.lastBit = last
  run      : u.run.toNat = n
  runLe    : n ≤ x.length
  cursor   : u.wrBits.toNat = x.length
  bits     : HoldsBits x u
  complete : u.complete = false
  params   : u.params = s.params
  history  : s.history <:+ u.history

section

variable {x y bits : List Bool} {run n : Nat} {last : Bool}

theorem holdsBits_storeBit (h : HoldsBits x u) (hw : u.wrBits.toNat = x.length) (b : Bool) :
    HoldsBits (x ++ [b]) (u.storeBit b) := by
  intro i d hi
  rw [frameBit_storeBit, hw]
  obtain hlt | rfl | hgt := Nat.lt_trichotomy i x.length
  · rw [if_neg hlt.ne]
    exact h i d (by rwa [List.getElem?_append_left hlt] at hi)
  · simpa using hi
  · simp [List.getElem?_eq_none (l := x ++ [b]) (i := i) (by simp; omega)] at hi

theorem HoldsBits.left (h : HoldsBits (x ++ y) u) : HoldsBits x u := fun i b hi =>
  h i b (by rw [List.getElem?_append_left (List.getElem?_eq_some_iff.1 hi).1, hi])

theorem receiving_lock (hc : s.complete = false) (n : BitVec 3) {es : List Event} (hes : s.history <:+ es) :
    Receiving s [] 0 false (acquiring .data n es s).acquireLock where
  inData   := rfl
  noHalf   := rfl
  lastBit  := rfl
  run      := rfl
  runLe    := le_rfl
  cursor   := rfl
  bits     := nofun
  complete := hc
  params   := rfl
  history  := hes

/-! A list of wire bits is its bits' edges one after another. -/

theorem execAll_wireEdges_cons {p : Params} {b : Bool} (h : execAll (edgeOps (bitEdges p last b)) u = .next t) :
    execAll (edgeOps (wireEdges p last (b :: x))) u = execAll (edgeOps (wireEdges p b x)) t := by
  rw [wireEdges, edgeOps_append, execAll_append h]

theorem execAll_wireEdges_append {p : Params} (h : execAll (edgeOps (wireEdges p last x)) u = .next t) :
    execAll (edgeOps (wireEdges p last (x ++ y))) u = execAll (edgeOps (wireEdges p (x.getLastD last) y)) t := by
  rw [wireEdges_append, edgeOps_append, execAll_append h]

/-- Seven 1s before a list add a full 7 at its end, or nothing. -/
theorem trailingOnes_onesThen_seven_mod (x : List Bool) : trailingOnes (onesThen 7 x) % 7 = trailingOnes x % 7 := by
  rw [trailingOnes_onesThen_seven]
  split <;> omega

section

variable (hl : s.params.legal = true) (ht : s.params.timed = true)
include hl ht

/-- While a frame is received the edges of a wire bit give it to `WriteBit`, in a state that differs by events alone. -/
theorem Receiving.bit (h : Receiving s x run last u) (b : Bool) :
    ∃ m, Receiving s x run b m
      ∧ execAll (edgeOps (bitEdges s.params last b)) u = concludeRx (writeBit b m) := by
  obtain ⟨hist, hsuffix, hx⟩ := execAll_bitEdges (h.params ▸ hl) (h.params ▸ ht) h.inData h.noHalf b
  rw [← h.params, ← h.lastBit]
  exact ⟨afterRecovery b { u with history := hist },
    { h with noHalf := rfl, lastBit := rfl, history := h.history.trans hsuffix }, hx⟩

theorem Receiving.store (h : Receiving s x run last u) (hr : run < 7) (hw : x.length < frameBits s) (b : Bool) :
    ∃ t, execAll (edgeOps (bitEdges s.params last b)) u = .next t
      ∧ Receiving s (x ++ [b]) (countRun run b) b t := by
  obtain ⟨m, hm, hx⟩ := h.bit hl ht b
  have hrun : m.run.toNat ≠ 7 := by rw [hm.run]; omega
  have hlt : m.wrBits.toNat < frameBits m := by rw [hm.cursor, frameBits, hm.params]; exact hw
  have hnext : ((m.storeBit b).run).toNat = countRun run b := by
    rw [storeBit_run_toNat hrun, hm.run]; rfl
  rw [hx, writeBit_store b hrun hlt]
  refine ⟨_, rfl, { hm with
    run     := hnext
    runLe   := ?_
    cursor  := ?_
    bits    := holdsBits_storeBit hm.bits hm.cursor b
    history := hm.history.trans (List.suffix_cons _ _) }⟩
  · have := hm.runLe
    cases b <;> simp [this]
  · rw [List.length_append, ← hm.cursor]
    exact storeBit_wrBits_toNat (hm.params ▸ hl) hlt b

theorem Receiving.discard (h : Receiving s x 7 last u) :
    ∃ t, execAll (edgeOps (bitEdges s.params last false)) u = .next t ∧ Receiving s x 0 false t := by
  obtain ⟨m, hm, hx⟩ := h.bit hl ht false
  rw [hx, writeBit_stuffed hm.run]
  exact ⟨_, rfl, { hm with run := rfl, runLe := Nat.zero_le _, history := hm.history.trans (List.suffix_cons _ _) }⟩

/-- The terminator's last 1 completes the frame with the bits before the last seven. -/
theorem Receiving.finish (h : Receiving s x 7 last u) :
    ∃ t, execAll (edgeOps (bitEdges s.params last true)) u = .next t ∧ t.rxState = .idle ∧ t.complete = true
      ∧ t.wrBits.toNat = x.length - 7 ∧ HoldsBits x t ∧ t.params = s.params := by
  obtain ⟨m, hm, hx⟩ := h.bit hl ht true
  have hw : m.finishFrame.wrBits.toNat = x.length - 7 :=
    hm.cursor ▸ BitVec.toNat_sub_of_le (y := 7#16) (hm.runLe.trans hm.cursor.ge)
  rw [hx, writeBit_terminator hm.run]
  exact ⟨_, rfl, rfl, rfl, hw, hm.bits, hm.params⟩

/-- A bit to store with the store full drops the frame, with cause Capacity. -/
theorem Receiving.overfill (h : Receiving s x run last u) (hr : run < 7) (hw : x.length = frameBits s) (b : Bool) :
    ∃ t, execAll (edgeOps (bitEdges s.params last b)) u = .next t ∧ t.rxState = .idle ∧ t.complete = false
      ∧ t.params = s.params ∧ ∃ es e, t.history = e :: es ∧ s.history <:+ es ∧ e.outcome = .desync .capacity [] := by
  obtain ⟨m, hm, hx⟩ := h.bit hl ht b
  have hrun : m.run.toNat ≠ 7 := by rw [hm.run]; omega
  have hfull : m.wrBits.toNat = frameBits m := by rw [hm.cursor, hw, frameBits, frameBits, hm.params]
  rw [hx, writeBit_full b hrun hfull]
  exact ⟨_, rfl, rfl, hm.complete, hm.params, _, _, rfl, hm.history, rfl⟩

/-- The wire bits of a stuffed list store the list, if it fits (spec/41_receive.md R545). -/
theorem Receiving.stuffed (hs : Stuffs run bits y) (h : Receiving s x run last u)
    (hfit : x.length + bits.length ≤ frameBits s) :
    ∃ t, execAll (edgeOps (wireEdges s.params last y)) u = .next t
      ∧ Receiving s (x ++ bits) (trailingOnes (onesThen run bits) % 7) (y.getLastD last) t := by
  induction hs generalizing x last u with
  | nil hr =>
    rw [trailingOnes_onesThen_nil, Nat.mod_eq_of_lt hr, List.append_nil]
    exact ⟨u, rfl, h⟩
  | zero hr _ ih =>
    rw [List.length_cons] at hfit
    obtain ⟨m, hm, hstored⟩ := h.store hl ht hr (by omega) false
    obtain ⟨t, hx, hend⟩ := ih hstored (by simp; omega)
    rw [List.append_assoc] at hend
    rw [trailingOnes_onesThen_false, List.getLastD_cons]
    exact ⟨t, (execAll_wireEdges_cons hm).trans hx, hend⟩
  | seventh _ ih =>
    rw [List.length_cons] at hfit
    obtain ⟨m, hm, hstored⟩ := h.store hl ht (by omega) (by omega) true
    obtain ⟨m', hm', hdropped⟩ := hstored.discard hl ht
    obtain ⟨t, hx, hend⟩ := ih hdropped (by simp; omega)
    rw [List.append_assoc] at hend
    rw [onesThen_true, trailingOnes_onesThen_seven_mod, List.getLastD_cons, List.getLastD_cons]
    exact ⟨t, (execAll_wireEdges_cons hm).trans ((execAll_wireEdges_cons hm').trans hx), hend⟩
  | one hr _ ih =>
    rw [List.length_cons] at hfit
    obtain ⟨m, hm, hstored⟩ := h.store hl ht (by omega) (by omega) true
    obtain ⟨t, hx, hend⟩ := ih hstored (by simp; omega)
    rw [List.append_assoc] at hend
    rw [onesThen_true, List.getLastD_cons]
    exact ⟨t, (execAll_wireEdges_cons hm).trans hx, hend⟩

/-- 1s that make the run at most 7 are stored, if they fit. -/
theorem Receiving.ones (h : Receiving s x run last u) (hr : run + n ≤ 7) (hfit : x.length + n ≤ frameBits s) :
    ∃ t, execAll (edgeOps (wireEdges s.params last (List.replicate n true))) u = .next t
      ∧ Receiving s (x ++ List.replicate n true) (run + n) ((List.replicate n true).getLastD last) t := by
  induction n generalizing x run last u with
  | zero => exact ⟨u, rfl, by simpa using h⟩
  | succ n ih =>
    obtain ⟨m, hm, hstored⟩ := h.store hl ht (by omega) (by omega) true
    obtain ⟨t, hx, hend⟩ := ih hstored (by simp; omega) (by simp; omega)
    rw [List.append_assoc, countRun_true, Nat.add_right_comm] at hend
    rw [List.replicate_succ, List.getLastD_cons]
    exact ⟨t, (execAll_wireEdges_cons hm).trans hx, hend⟩

/-- The terminator after a run of `run` 1s: its first `7 - run` bits are stored and then retracted with the run, the
next completes the frame, and `run` more follow outside DATA. -/
theorem Receiving.terminator (h : Receiving s x run last u) (hr : run < 7)
    (hfit : x.length + (7 - run) ≤ frameBits s) :
    ∃ t, execAll (edgeOps (wireEdges s.params last terminatorBits)) u
        = execAll (edgeOps (wireEdges s.params true (List.replicate run true))) t
      ∧ t.rxState = .idle ∧ t.complete = true ∧ t.wrBits.toNat = x.length - run ∧ HoldsBits x t
      ∧ t.params = s.params := by
  have hsplit : terminatorBits = List.replicate (7 - run) true ++ true :: List.replicate run true := by
    rw [← List.replicate_succ, List.replicate_append_replicate, terminatorBits_eq]
    congr 1
    omega
  obtain ⟨m, hm, hfull⟩ := h.ones hl ht (n := 7 - run) (by omega) hfit
  rw [Nat.add_sub_cancel' hr.le] at hfull
  obtain ⟨t, hx, hidle, hc, hw, hbits, hp⟩ := hfull.finish hl ht
  refine ⟨t, ?_, hidle, hc, ?_, hbits.left, hp⟩
  · rw [hsplit, execAll_wireEdges_append hm, execAll_wireEdges_cons hx]
  · rw [hw, List.length_append, List.length_replicate]
    omega

end

/-! ### Terminator bits outside DATA (spec/41_receive.md R546 case 3) -/

/-- Outside DATA a repeated 1 leaves the decoder in SYNC: the falling edge returns it to IDLE, and the rising one starts
acquisition. -/
theorem one_outsideData (hl : u.params.legal = true) (ht : u.params.timed = true) (hu : u.rxState ≠ .data) :
    ∃ es, execAll (edgeOps (bitEdges u.params true true)) u = .next (acquiring .sync 1#3 es u) := by
  have hfall : ∃ es, exec (.edge false (BitVec.ofNat 16 u.params.halfUs)) u = .next (acquiring .idle u.syncN es u) := by
    obtain ⟨hshort, -⟩ := classify_channel hl ht
    cases hs : u.rxState with
    | idle => exact ⟨_, (edge_idle hs).trans (by rw [acquiring, ← hs]; rfl)⟩
    | sync =>
      rw [edge_sync hs, hshort]
      exact ⟨_, rfl⟩
    | data => exact absurd hs hu
  obtain ⟨es, hx⟩ := hfall
  obtain ⟨es', hx'⟩ := edge_starts (s := acquiring .idle u.syncN es u) (iv := BitVec.ofNat 16 u.params.halfUs) rfl
  exact ⟨es', (execAll_cons hx).trans ((execAll_singleton _ _).trans hx')⟩

theorem ones_outsideData (hl : u.params.legal = true) (ht : u.params.timed = true) (hu : u.rxState ≠ .data)
    (hn : 0 < n) :
    ∃ es, execAll (edgeOps (wireEdges u.params true (List.replicate n true))) u = .next (acquiring .sync 1#3 es u) := by
  obtain ⟨k, rfl⟩ := Nat.exists_eq_succ_of_ne_zero hn.ne'
  induction k generalizing u with
  | zero => exact one_outsideData hl ht hu
  | succ k ih =>
    obtain ⟨es, hx⟩ := one_outsideData hl ht hu
    obtain ⟨es', hx'⟩ := ih (u := acquiring .sync 1#3 es u) hl ht nofun (Nat.succ_pos k)
    exact ⟨es', (execAll_wireEdges_cons hx).trans hx'⟩

end

/-! ### Whole frames (spec/41_receive.md R546, R547) -/

/-- Stuffing a list in two parts: the counter goes on from the 1s that the first part's stuffed list ends in. -/
theorem stuffFrom_append {run : Nat} (hr : run < 7) (x y : List Bool) :
    stuffFrom run (x ++ y) = stuffFrom run x ++ stuffFrom (trailingOnes (onesThen run x) % 7) y := by
  induction x generalizing run with
  | nil => simp [Nat.mod_eq_of_lt hr]
  | cons b x ih =>
    cases b with
    | false => simp [stuffFrom_cons, ih (run := 0) (by omega)]
    | true =>
      rw [onesThen_true]
      by_cases h7 : run + 1 = 7
      · rw [h7, trailingOnes_onesThen_seven_mod]
        simp [stuffFrom_cons, h7, ih (run := 0) (by omega)]
      · simp [stuffFrom_cons, h7, ih (run := run + 1) (by omega)]

theorem lockEdgesAfterFirst_long {p : Params} (hl : p.legal = true) (ht : p.timed = true) :
    ∀ e ∈ lockEdgesAfterFirst p, classify p e.2.toNat = .long := by
  intro e he
  obtain ⟨b, -, rfl⟩ := List.mem_map.1 he
  exact (classify_channel hl ht).2

/-- The falling edge that a frame makes of a high line is ignored in IDLE (spec/41_receive.md R515). -/
theorem leadingEdge_ignored (h : s.rxState = .idle) (l0 : Bool) (iv : BitVec 16) :
    ∃ es, execAll (edgeOps (if l0 then [(false, iv)] else [])) s = .next { s with history := es } := by
  cases l0 with
  | false => exact ⟨s.history, rfl⟩
  | true => exact ⟨_, (execAll_singleton _ _).trans (edge_idle h)⟩

section

variable {q : List Byte} {l0 : Bool}
variable (hl : s.params.legal = true) (ht : s.params.timed = true) (hidle : s.rxState = .idle)
  (hc : s.complete = false)
include hl ht hidle hc

/-- A frame's preamble locks the decoder, and the rest of its wire bits find it locked. -/
theorem idealEdges_lock (l0 : Bool) (q : List Byte) :
    ∃ m, Receiving s [] 0 false m ∧ execAll (idealEdges s.params l0 (txLevels q)) s
      = execAll (edgeOps (wireEdges s.params false (stuff (payloadBits q) ++ terminatorBits))) m := by
  obtain ⟨iv, iv', hedges⟩ := idealEdges_eq hl ht l0 q
  obtain ⟨es, hlead⟩ := leadingEdge_ignored hidle l0 iv
  obtain ⟨n, hist, hlock⟩ := acquisition_locks (s := { s with history := es }) (iv := iv') hidle hc
    (lockEdgesAfterFirst_long hl ht) rfl
  have hprefix := (execAll_append hlead).trans hlock
  refine ⟨_, receiving_lock hc n (execAll_history hprefix), ?_⟩
  rw [hedges, execAll_append hprefix]
  rfl

/-- A frame that fits: all its bits are stored, and it completes with the 1s that the stuffed payload ends in cut off.
As many terminator bits follow in IDLE. -/
theorem idealEdges_complete (hfit : q.length + 1 ≤ s.params.bufBytes) :
    ∃ t, execAll (idealEdges s.params l0 (txLevels q)) s = .next t
      ∧ t.wrBits.toNat = 8 * q.length - trailingOnes (payloadBits q) % 7 ∧ t.complete = true
      ∧ HoldsBits (payloadBits q) t
      ∧ (trailingOnes (payloadBits q) % 7 = 0 → t.rxState = .idle)
      ∧ (0 < trailingOnes (payloadBits q) % 7 → t.rxState = .sync ∧ t.syncN = 1#3) := by
  obtain ⟨m, hlocked, hx⟩ := idealEdges_lock hl ht hidle hc l0 q
  have hr : trailingOnes (payloadBits q) % 7 < 7 := Nat.mod_lt _ (by omega)
  obtain ⟨m₁, hm₁, hstored⟩ := hlocked.stuffed hl ht (stuffs_stuff (payloadBits q)) (by simp [frameBits]; omega)
  rw [onesThen_zero, List.nil_append] at hstored
  obtain ⟨m₂, hm₂, hend, hc₂, hw, hbits, hp⟩ := hstored.terminator hl ht hr (by simp [frameBits]; omega)
  rw [payloadBits_length] at hw
  rw [hx, execAll_wireEdges_append hm₁, hm₂]
  obtain hzero | hpos := Nat.eq_zero_or_pos (trailingOnes (payloadBits q) % 7)
  · rw [hzero] at hw ⊢
    exact ⟨m₂, rfl, hw, hc₂, hbits, fun _ => hend, nofun⟩
  · obtain ⟨es, htail⟩ := ones_outsideData (hp ▸ hl) (hp ▸ ht) (by simp [hend]) hpos
    rw [hp] at htail
    exact ⟨_, htail, hw, hc₂, hbits, fun hzero => absurd hzero hpos.ne', fun _ => ⟨rfl, rfl⟩⟩

/-- A frame at capacity or above: its payload's first bits fill the store, and the next wire bit is one to store, which
drops the frame. -/
theorem idealEdges_overfill (hfull : s.params.bufBytes ≤ q.length) :
    ∃ m b z, stuff (payloadBits q) ++ terminatorBits
        = stuff ((payloadBits q).take (frameBits s)) ++ b :: z
      ∧ execAll (idealEdges s.params l0 (txLevels q)) s = execAll (edgeOps (wireEdges s.params b z)) m
      ∧ m.rxState = .idle ∧ m.complete = false ∧ m.params = s.params
      ∧ ∃ es e, m.history = e :: es ∧ s.history <:+ es ∧ e.outcome = .desync .capacity [] := by
  obtain ⟨m₀, hlocked, hx⟩ := idealEdges_lock hl ht hidle hc l0 q
  have hlen : ((payloadBits q).take (frameBits s)).length = frameBits s :=
    List.length_take_of_le (by simp [frameBits]; omega)
  obtain ⟨m₁, hm₁, hstored⟩ :=
    hlocked.stuffed hl ht (stuffs_stuff ((payloadBits q).take (frameBits s))) (by simp [hlen])
  obtain ⟨b, z, hnext⟩ := List.exists_cons_of_ne_nil (l := stuffFrom
    (trailingOnes (onesThen 0 ((payloadBits q).take (frameBits s))) % 7) ((payloadBits q).drop (frameBits s))
      ++ terminatorBits) (by simp)
  have hsplit : stuff (payloadBits q) ++ terminatorBits
      = stuff ((payloadBits q).take (frameBits s)) ++ b :: z := by
    rw [stuff, stuff, ← hnext, ← List.append_assoc, ← stuffFrom_append (by omega), List.take_append_drop]
  obtain ⟨m, hm, hend, hc', hp, hhistory⟩ := hstored.overfill hl ht (Nat.mod_lt _ (by omega)) hlen b
  refine ⟨m, b, z, hsplit, ?_, hend, hc', hp, hhistory⟩
  rw [hx, hsplit, execAll_wireEdges_append hm₁, execAll_wireEdges_cons hm]

end

/-- Payload bit `8*j + k` is bit `k` of byte `j`, counted from the most significant. -/
theorem getElem?_payloadBits {q : List Byte} {j k : Nat} (hj : j < q.length) (hk : k < 8) :
    (payloadBits q)[8 * j + k]? = some (q[j].getLsbD (7 - k)) := by
  induction q generalizing j with
  | nil => simp at hj
  | cons b q ih =>
    rw [payloadBits_cons]
    cases j with
    | zero =>
      rw [List.getElem?_append_left (by simpa using hk)]
      interval_cases k <;> rfl
    | succ j =>
      rw [List.getElem?_append_right (by simp; omega), byteBits_length, List.getElem_cons_succ,
        show 8 * (j + 1) + k - 8 = 8 * j + k by omega]
      exact ih (by simpa using hj)

/-- With the payload's bits in the store, its bytes are the payload's. -/
theorem frameByte_of_holdsBits {q : List Byte} (h : HoldsBits (payloadBits q) u) {j : Nat} (hj : j < q.length) :
    frameByte u j = q[j] := by
  have hbit (k : Nat) (hk : k < 8) : (frameByte u j).getLsbD (7 - k) = q[j].getLsbD (7 - k) := by
    rw [getLsbD_frameByte u j hk]
    exact h _ _ (getElem?_payloadBits hj hk)
  refine BitVec.eq_of_getLsbD_eq fun k hk => ?_
  have hflip := hbit (7 - k) (by omega)
  rwa [Nat.sub_sub_self (Nat.le_of_lt_succ hk)] at hflip

/-- Settles O57: no 1s are cut off, so the decoder is left in IDLE. -/
theorem frameIsDelivered : Obligations.FrameIsDelivered := by
  intro s l0 q hl ht hidle hc hfit hr
  obtain ⟨t, hx, hw, hc', hbits, hend, -⟩ := idealEdges_complete (l0 := l0) hl ht hidle hc hfit
  exact ⟨t, hx, by rw [hw, hr, Nat.sub_zero], hc', hend hr, fun j hj => frameByte_of_holdsBits hbits hj⟩

/-- Settles O58: the bits of every byte are stored, and the cursor is left in the last one. -/
theorem frameIsTruncated : Obligations.FrameIsTruncated := by
  intro s l0 q hl ht hidle hc hfit hr
  obtain ⟨t, hx, hw, hc', hbits, -, hend⟩ := idealEdges_complete (l0 := l0) hl ht hidle hc hfit
  obtain ⟨hsync, hn⟩ := hend hr
  exact ⟨t, hx, hw, hc', hsync, hn, fun j hj => frameByte_of_holdsBits hbits (Nat.lt_of_succ_lt hj)⟩

/-- Settles O59: after a payload that fills the store exactly, only terminator bits follow the desync. -/
theorem frameAtCapacityIsDropped : Obligations.FrameAtCapacityIsDropped := by
  intro s l0 q hl ht hidle hc hfull
  obtain ⟨m, b, z, hsplit, hx, hend, hc', hp, es, e, hhistory, ⟨es₁, hes₁⟩, he⟩ :=
    idealEdges_overfill (l0 := l0) hl ht hidle hc hfull
  rw [hx]
  obtain ⟨t, ht'⟩ := execAll_edgeOps_next (s := m) (es := wireEdges s.params b z) (hp ▸ hl)
    fun hd => by simp [hend] at hd
  obtain ⟨es₂, hes₂⟩ := execAll_history ht'
  refine ⟨t, es₂ ++ e :: es₁, ht', ?_, ⟨e, by simp, he⟩, fun hexact => ?_⟩
  · rw [← hes₂, hhistory, ← hes₁]
    simp
  · have hall : (payloadBits q).take (frameBits s) = payloadBits q := List.take_of_length_le (by simp [hexact])
    rw [hall] at hsplit
    obtain ⟨rfl, rfl⟩ : true = b ∧ List.replicate 7 true = z := List.cons.inj (List.append_cancel_left hsplit)
    obtain ⟨es, htail⟩ := ones_outsideData (u := m) (n := 7) (hp ▸ hl) (hp ▸ ht) (by simp [hend]) (by omega)
    rw [hp, ht'] at htail
    cases htail
    exact hc'

/-- Settles O60: TAKE returns as many whole bytes as the cursor has passed, and they are the payload's. -/
theorem payloadRoundTrip : Obligations.PayloadRoundTrip := by
  intro s l0 q hl ht hidle hc hpos hfit hr
  obtain ⟨-, ⟨-, hcap⟩, -⟩ := (legal_iff _).1 hl
  obtain ⟨t, hx, hw, hc', -, hbytes⟩ := frameIsDelivered s l0 q hl ht hidle hc (by omega) hr
  have hcount : takeCount 65535#16 t = q.length := by
    simp [takeCount, hw]
    omega
  have hdata : (List.range q.length).map (frameByte t) = q :=
    List.ext_getElem (by simp) fun j hj hj' => by simpa using hbytes j hj'
  have htake := take_frame (len := 65535#16) hc' (by rw [hcount, execAll_params hx]; omega)
  rw [hcount, hdata] at htake
  exact ⟨_, _, (execAll_append hx).trans ((execAll_singleton _ _).trans htake), rfl, rfl, rfl⟩

end Sys2Proof.Proofs
end

section
/-! PROOF. The frame store (spec/42_frame_store.md). TAKE on each of its branches, with its response written out. -/

namespace Sys2Proof.Proofs

open Sys2Proof Sys2Proof.Config Sys2Proof.Machine Sys2Proof.Safety Sys2Proof.Laws

variable {s : State}

/-- The response to a TAKE of `n` bytes counts `n` (spec/30_encoding.md R340). -/
theorem responseOf_frameBytes (n : Nat) : responseOf ((List.range n).map (frameByte s))
    = ⟨BitVec.ofNat 16 n, (List.range n).map (frameByte s)⟩ := by
  rw [responseOf, List.length_map, List.length_range]

/-- Settles O39: TAKE on its two branches, the second with the number of bytes as the count. -/
theorem takeRule : Obligations.TakeRule := by
  refine fun s len => ⟨take_noFrame, fun hc hb => ?_⟩
  rw [take_frame hc hb, responseOf_frameBytes]
  rfl

end Sys2Proof.Proofs
end

section
/-! PROOF. Control (spec/43_control.md). What the registers and the two arrays read as in the state a RESET leaves. -/

namespace Sys2Proof.Proofs

open Sys2Proof Sys2Proof.Config Sys2Proof.Machine Sys2Proof.Safety Sys2Proof.Laws

variable {s t : State}

/-- With no bit written, the frame store is the new draw (spec/43_control.md R650). -/
@[simp] theorem frameBit_clear (i : Nat) : frameBit s.clear i = frameDraw (s.draws + 1) i := by
  rw [frameBit, clear_frame, clear_draws, read_nil, Option.getD_none]

/-- With no byte written, `TxMem` is the new draw (spec/43_control.md R650). -/
@[simp] theorem txByte_clear (j : Nat) : txByte s.clear j = txDraw (s.draws + 1) j := by
  rw [txByte, clear_txMem, clear_draws, read_nil, Option.getD_none]

/-- A RESET leaves the receiver's registers as at power-on (spec/43_control.md R652). -/
theorem reset_receiverRegs (h : exec .reset s = .next t) : SameReceiverRegs State.reset t := by
  cases (reset_next s).symm.trans h
  exact ⟨rfl, rfl, rfl, rfl, rfl, rfl, rfl⟩

/-- A RESET leaves the transmitter's registers as at power-on (spec/43_control.md R652). -/
theorem reset_transmitterRegs (h : exec .reset s = .next t) : SameTransmitterRegs State.reset t := by
  cases (reset_next s).symm.trans h
  exact ⟨rfl, rfl, rfl, rfl, rfl⟩

/-- Settles O12: the registers are those at power-on, and no cell of either array is written. -/
theorem resetLeavesTheTable : Obligations.ResetLeavesTheTable := by
  intro s
  have hx := reset_next s
  have hrx := reset_receiverRegs hx
  have htx := reset_transmitterRegs hx
  refine ⟨_, hx, hrx.rxState, hrx.syncN, hrx.pendingHalf, hrx.lastBit, hrx.run, hrx.wrBits, hrx.complete,
    htx.txActive, htx.txLen, htx.txH, htx.lineOut, htx.pulseReady, clear_draws s, txByte_clear, frameBit_clear,
    hrx, htx, clear_frame s, clear_txMem s, clear_params s, clear_port s, ?_⟩
  rw [record_history, status_clear, clear_history]

end Sys2Proof.Proofs
end

section
/-! PROOF. Exceptions (spec/60_exceptions.md). A step with nothing presented on the port. -/

namespace Sys2Proof.Proofs

open Sys2Proof Sys2Proof.Config Sys2Proof.Machine Sys2Proof.Safety Sys2Proof.Laws

variable {s : State}

/-- An empty port presents no word (spec/10_state.md R102). -/
theorem nextWord?_eq_none (hp : s.port = []) : nextWord? s = none := by
  rw [nextWord?, hp]

/-- Settles O10: with legal parameters a step is decided by the next word, and there is none. -/
theorem nothingPresentedPersists : Obligations.NothingPresentedPersists := by
  intro s hl hp
  rw [step, if_pos hl, nextWord?_eq_none hp]

end Sys2Proof.Proofs
end

section
/-! PROOF. Reset and hazards (spec/70_reset_and_hazards.md). The invariants keep every access inside its array, so no
operation faults and the block never halts. -/

namespace Sys2Proof.Proofs

open Sys2Proof Sys2Proof.Config Sys2Proof.Machine Sys2Proof.Safety Sys2Proof.Laws

variable {s : State} {idx len : BitVec 16} {data : Byte}

/-- TICK reads `TxMem` only for a frame in flight, and that frame's payload lies in it (spec/10_state.md R150 item 8). -/
theorem tick_next (h : s.txActive = true → TxInBounds s) : ∃ t, exec .tick s = .next t := by
  cases ha : s.txActive with
  | false => exact ⟨_, tick_idle ha⟩
  | true =>
    obtain ⟨p, hp, -⟩ := h ha
    exact ⟨_, tick_sending ha hp⟩

/-- TX_WRITE drops an index outside `TxMem`. -/
theorem txWrite_next : ∃ t, exec (.txWrite idx data) s = .next t := by
  cases ha : s.txActive with
  | true => exact ⟨_, txWrite_busy ha⟩
  | false =>
    obtain hi | hi := le_or_gt s.params.txBufBytes idx.toNat
    · exact ⟨_, txWrite_outside ha hi⟩
    · exact ⟨_, txWrite_inside ha hi⟩

/-- TX_START drops a length beyond `TxMem`. -/
theorem txStart_next : ∃ t, exec (.txStart len) s = .next t := by
  cases ha : s.txActive with
  | true => exact ⟨_, txStart_busy ha⟩
  | false =>
    obtain hl | hl := le_or_gt len.toNat s.params.txBufBytes
    · exact ⟨_, txStart_fits ha hl⟩
    · exact ⟨_, txStart_tooLong ha hl⟩

/-- In a state that meets the invariants every operation completes (spec/60_exceptions.md R700). -/
theorem exec_next_of_linkInv (h : LinkInv s) (i : Instr) : ∃ t, exec i s = .next t := by
  obtain ⟨hoverflow, htake⟩ := decoderIsNeverStuck s h
  cases i with
  | tick => exact tick_next h.sending
  | edge dir iv => exact edge_next fun _ => h.cursor
  | overflow => exact hoverflow.imp fun _ => And.left
  | txWrite idx data => exact txWrite_next
  | txStart len => exact txStart_next
  | take len => exact (htake len).imp fun _ => And.left
  | reset => exact ⟨_, reset_next s⟩

/-- A word completes as the operation it spells, or as a refusal that leaves only its mark (spec/30_encoding.md R350). -/
theorem applyWord_next_of_linkInv (h : LinkInv s) (w : Word) : ∃ t, applyWord w s = .next t := by
  unfold applyWord
  cases decode w with
  | op i => exact exec_next_of_linkInv h i
  | refuse q => exact ⟨_, rfl⟩

/-- Settles O54: an empty port leaves the state, and taking a word off the port keeps the invariants. -/
theorem invariantStatesNeverStop : Obligations.InvariantStatesNeverStop := by
  intro s h
  cases hp : s.port with
  | nil => exact ⟨s, nothingPresentedPersists s h.legal hp⟩
  | cons w ws =>
    rw [step_presented h.legal hp]
    exact applyWord_next_of_linkInv (linkInv_withPort h ws) w

end Sys2Proof.Proofs
end
